-- ==== Sys2Proof/Word.lean ====
section
/-! DEFINITION. The byte, the register word and the plainest arithmetic over them (00_scope.md R3, R4). -/
namespace Sys2Proof

/-- One byte (00 R3). -/
abbrev Byte := BitVec 8

/-- One 32-bit register word of BAR0 or BAR2 (10 R268). -/
abbrev Word := BitVec 32

/-- A table of values by number, in one canonical form: numbers strictly rising. -/
abbrev Tab (α : Type) := List (Nat × α)

end Sys2Proof
end

