-- ==== Sys2Proof/Syntax.lean ====
section
/-! DEFINITION. The commands of the T3216: one constructor of `Instr` for each row of spec/opcode_table.json.

Every command carries first the instant `t` at which it happens, in picoseconds since State.reset.
The other operands are what the row's rule says comes from outside the part: the bytes of a frame or of a message,
the words of a register access, what a sensor or a link partner shows, what firmware decided. -/
namespace Sys2Proof

/-- The path a dictionary command arrives on, which fixes its principal (02 R23, R24; 11 R294). -/
inductive Source where
  /-- the secure window of BAR2: host-secure -/
  | secure
  /-- the non-secure window of BAR2: host-nonsecure -/
  | nonsecure
  /-- a Pouvex request from the node given; it is the anchor only when that node is the active anchor -/
  | pouvex (node : Nat)
  /-- Galelek firmware of the Marshal, the Timekeepers or the Judges: Marshal-local -/
  | marshal
  /-- the Starter -/
  | starter
  /-- an owner-supplied Judge program, whose writes are refused (11 R294) -/
  | judge
  deriving DecidableEq, Repr

/-- Who makes a BAR access: the host over CXL.io, or a processor group through its view of BAR0 (18 R458). -/
inductive Master where
  | host | marshal | timekeepers | judges | starter
  deriving DecidableEq, Repr

/-- The three BARs (10 R267). -/
inductive Bar where
  | bar0 | bar2 | bar4
  deriving DecidableEq, Repr

/-- What the error correction of a memory found on the read that a step makes (01 Table 1.7, 16 R424). -/
inductive Ecc where
  /-- every word read was good -/
  | good
  /-- a word was corrected in flight -/
  | corrected
  /-- an uncorrectable word 0 of a flow head, or of any other structure read -/
  | head
  /-- an uncorrectable key word of a flow head -/
  | key
  /-- an uncorrectable verdict word of a flow head -/
  | verdict
  /-- an uncorrectable word of a flow tail -/
  | tail
  deriving DecidableEq, Repr

/-- The data of a BAR write, and whether its byte enables are all ones (10 R268). -/
structure BarData where
  bytes : List Byte
  full : Bool := true
  deriving DecidableEq, Repr

/-- An access that R268 may not accept: read or write, its bytes, and whether its byte enables are all ones (10 R268, R269). -/
structure BarShape where
  wr : Bool
  size : Nat
  full : Bool := true
  deriving DecidableEq, Repr

/-- The link word read from cell 0 of a free tile (07 Table 7.1), and whether error correction vouches for it. -/
structure FreeLink where
  tile : Fin 4096
  word : BitVec 64
  corrected : Bool := false
  deriving DecidableEq, Repr

/-- The slow domains of BAR0 (02 R49): always-on, and the four port domains. -/
inductive SlowDomain where
  | ao | port (s : Fin 4)
  deriving DecidableEq, Repr

/-- A clock source with a lock detector (14 Table 14.1). -/
inductive Pll where
  | alwaysOn | pipeline | marshal | judge | memory | lane (n : Fin 36) | hostPhy
  deriving DecidableEq, Repr

/-- A processor core: Marshal 0 to 3, Timekeeper 0 to 3, Judge 0 to 7 (01 Table 1.5). -/
inductive CoreId where
  | marshal (n : Fin 4) | timekeeper (n : Fin 4) | judge (n : Fin 8)
  deriving DecidableEq, Repr

/-- How the boot step in progress ended, as the hardware it uses shows it (15 R395, Table 15.6). -/
inductive BootResult where
  /-- the step completed as 15 R395 states -/
  | done
  /-- an uncorrectable word in ROOT_HASH, OWNER_HASH or LIFECYCLE -/
  | fuseBad
  /-- an uncorrectable word in ID_SECRET -/
  | secretBad
  /-- the boot flash does not respond -/
  | flashSilent
  /-- memory stack `k` fails training -/
  | stackBad (k : Fin 2)
  deriving DecidableEq, Repr

/-- A reset of the host block (10 Table 10.14, first column). -/
inductive HostReset where
  | conventional | hot | linkDown
  deriving DecidableEq, Repr

/-- COLD_RST_N at an instant: it falls or stays low with the supplies coming up, or it rises (17 R430). -/
inductive ColdReset where
  | asserted (t : Nat)
  | released (t : Nat)
  deriving DecidableEq, Repr

/-- An error of the host link at an instant; `recovered`: the link-layer retry recovers it (10 R286). -/
structure LinkError where
  at_ : Nat
  recovered : Bool := false
  deriving DecidableEq, Repr

/-- What a host configuration write changes (10 R264, R267, R281, R284, R286): Bus Master Enable, the two CXL enables, the
MSI-X function mask, the address of a BAR, ASPM L1, the severity that AER gives each uncorrectable error, or the AER status bits that
writing 1 clears. The Boolean beside it is the value of a bit, and says nothing for the last three. -/
inductive CfgBit where
  | busMaster | cxlCache | cxlMem | msixMask
  | aspmL1
  | bar (b : Bar) (addr : BitVec 64)
  | aerSeverity (bits : BitVec 32)
  | aerClear (uncorrectable correctable : BitVec 32)
  deriving DecidableEq, Repr

/-- The registers of a ring that `RING_CONFIG_WRITE` writes (10 Table 10.10). -/
inductive RingReg where
  | baseLo | baseHi | cfg
  deriving DecidableEq, Repr

/-- A span in which the power sequencer holds a slice in RUN (08 R230), as the plan lists it. -/
structure HoldSpan where
  /-- bit s: slice s is held -/
  slices : Nat
  /-- start and end, ps -/
  start : Nat
  stop : Nat
  deriving DecidableEq, Repr

/-- One reading of the temperature sensors, in thousandths of a degree Celsius (17 R448). -/
structure Temps where
  /-- the hottest of the sixteen die sensors -/
  die : Int
  stack0 : Int
  stack1 : Int
  deriving DecidableEq, Repr

/-- How a frame came over a port whose preemption mode is on (08 R223): the fragments it was reassembled from, 0 for a frame
sent whole, and the assembly and SMD errors met since the frame before it. -/
structure RxMerge where
  fragments : Nat := 0
  assembly : Nat := 0
  smd : Nat := 0
  deriving DecidableEq, Repr

/-- A frame that a classifier engine completes: what the parity of the rules and the ECC of the other core tables showed on
the lookup (01 Table 1.7, 16 Table 16.7). -/
structure Classified where
  f : Nat
  /-- the row in whose bank of the slice the lookup met a parity error -/
  parity : Option (Fin 32768) := none
  /-- of the VLAN table and the other core tables -/
  table : Ecc := .good
  deriving DecidableEq, Repr

/-- What an access of a core meets that is no ordinary answer: the refusal of an address that Table 11.2 does not allow, for a
write or a read (11 R294), or a word of its memories that ECC corrected or could not correct (16 Table 16.7, memory 4). -/
inductive CoreAccess where
  | barred (wr : Bool)
  | word (uncorrectable : Bool)
  deriving DecidableEq, Repr

/-- What the reads of a record found: the slot of the head whose word was bad, none being the record's own, and whether a
corrected word stood in the tail (05 R133; 01 Table 1.7). -/
structure FlowRead where
  ecc : Ecc := .good
  slot : Option Nat := none
  inTail : Bool := false
  deriving DecidableEq, Repr

/-- Who gives a flow command, and what error correction finds on the reads of records that it makes, by slot (05 R133). -/
structure FlowAccess where
  m : Master
  found : List FlowRead := []
  deriving DecidableEq, Repr

/-- The insert whose turn comes, by its key, and what error correction finds on the reads of heads that it makes (05 R133). -/
structure InsertTurn where
  key : BitVec 320
  found : List FlowRead := []
  deriving DecidableEq, Repr

/-- The slice whose reorder stage releases a frame, and the FDB words that the lookups of its addresses found corrected, or
uncorrectable (true), by index (01 Table 1.7). -/
structure Released where
  slice : Fin 4
  words : List (Nat × Bool) := []
  deriving DecidableEq, Repr

/-- What a gPTP instance reports when its grandmaster changes (08 R227). -/
structure GmChange where
  synchronised : Bool
  /-- identity of the grandmaster, 8 bytes -/
  identity : List Byte
  /-- offset from the grandmaster, ns -/
  offset : Int
  /-- rate to which the Timekeepers adjust the clock, in steps of 2^-44 from the reference; none: as it was -/
  rate : Option Int := none
  deriving DecidableEq, Repr

/-- The body of a HEARTBEAT (13 Table 13.5). -/
structure HeartbeatBody where
  role : Nat
  sync : Nat
  lanes : Nat
  flags : Nat
  epoch : Nat
  count : Nat
  deriving DecidableEq, Repr

/-- The body of a BEACON, with its sender (13 Table 13.5). -/
structure BeaconBody where
  epoch : Nat
  node : Nat
  flags : Nat
  rosterCommits : Nat
  seconds : Nat
  nanos : Nat
  deriving DecidableEq, Repr

/-- The body of an ANNOUNCE (13 Table 13.5): bytes 0 to 48. -/
structure AnnounceBody where
  /-- bytes 0 to 47: identity key hash, serial number, device, revision, configuration -/
  bytes : List Byte
  role : Nat
  deriving DecidableEq, Repr

/-- One command of the T3216: a row of spec/opcode_table.json with its operands. -/
inductive Instr where
  -- dictionary and registers (02)
  | registerWrite (t : Nat) (m : Master) (bar : Bar) (off : Nat) (data : BarData)
  | read (t : Nat) (src : Source) (idx : BitVec 16) (sub : BitVec 8)
  | write (t : Nat) (src : Source) (idx : BitVec 16) (sub : BitVec 8) (data : List Byte)
  | readStaged (t : Nat) (src : Source) (idx : BitVec 16) (sub : BitVec 8)
  | commit (t : Nat) (src : Source) (group : BitVec 8) (data : List Byte)
  | discard (t : Nat) (src : Source) (group : BitVec 8) (data : List Byte)
  | blockOpen (t : Nat) (src : Source) (idx : BitVec 16) (sub : BitVec 8) (data : List Byte)
  | blockSeg (t : Nat) (src : Source) (idx : BitVec 16) (sub : BitVec 8) (seg : BitVec 16) (data : List Byte)
  | blockClose (t : Nat) (src : Source) (idx : BitVec 16) (sub : BitVec 8) (data : List Byte)
  | blockRead (t : Nat) (src : Source) (idx : BitVec 16) (sub : BitVec 8) (seg : BitVec 16)
  | blockCancel (t : Nat) (src : Source) (idx : BitVec 16) (sub : BitVec 8)
  | blockReadStaged (t : Nat) (src : Source) (idx : BitVec 16) (sub : BitVec 8) (seg : BitVec 16)
  | unknownOpcode (t : Nat) (src : Source) (op : BitVec 8)
  | timedCommitEffect (t : Nat) (group : BitVec 8)
  | blockAbandoned (t : Nat) (src : Source)
  | marshalServiceTimeout (t : Nat) (src : Source)
  | marshalAnswer (t : Nat) (src : Source) (code : BitVec 32)
  | statusClear (t : Nat) (n : Fin 1024) (value : BitVec 32)
  | holdOffEnd (t : Nat) (n : Fin 1024)
  | snapshot (t : Nat)
  | snapshotDump (t : Nat)
  | snapshotFreezeArm (t : Nat)
  | snapshotComplete (t : Nat)
  | dumpComplete (t : Nat)
  | cntDataHiRead (t : Nat) (m : Master)
  | slowDomainWrite (t : Nat) (m : Master) (dom : SlowDomain) (off : BitVec 25) (value : BitVec 32)
  | slowWriteTakesEffect (t : Nat) (dom : SlowDomain)
  | slowDomainRead (t : Nat) (m : Master) (dom : SlowDomain) (off : BitVec 25)
  | darkRead (t : Nat) (m : Master) (bar : Bar) (off : BitVec 25) (halves : Fin 17)
  | darkWrite (t : Nat) (m : Master) (bar : Bar) (off : BitVec 25)
  -- processors (11), first part
  | watchdogExpiry (t : Nat) (g : Fin 3)
  | watchdogRestart (t : Nat) (g : Fin 3)
  -- ports (03, 08)
  | linkTrainingStart (t : Nat) (p : Fin 32)
  | partnerDetected (t : Nat) (p : Fin 32)
  | linkUp (t : Nat) (p : Fin 32)
  | linkDown (t : Nat) (p : Fin 32)
  | rxFrameStart (t : Nat) (p : Fin 32) (head : List Byte)
  | rxFrameEnd (t : Nat) (f : Nat) (rest : List Byte) (linkFailed : Bool) (merge : RxMerge)
  | parse (t : Nat) (f : Nat)
  | classificationDone (t : Nat) (f : Classified)
  | reorderRelease (t : Nat) (s : Released)
  -- flow stage and flow table (05, 06)
  | flowVerdict (t : Nat) (f : Nat) (ecc : FlowRead)
  | admissionTokenRefill (t : Nat)
  | flowInsertPlace (t : Nat) (i : InsertTurn)
  | relocationMove (t : Nat) (i : InsertTurn)
  | judgeDeadlineExpiry (t : Nat) (key : BitVec 320)
  | sweepVisit (t : Nat) (r : FlowRead)
  | sweepResume (t : Nat)
  | hdmRead (t : Nat) (addr : Nat) (ecc : Ecc)
  | hdmWrite (t : Nat) (addr : Nat)
  | hdmMeminv (t : Nat) (addr : Nat)
  | flowSearch (t : Nat) (a : FlowAccess)
  | flowNext (t : Nat) (a : FlowAccess) (byPolicy : Bool) (policy : BitVec 10)
  | flowInsert (t : Nat) (a : FlowAccess) (initTail : Bool)
  | flowDelete (t : Nat) (a : FlowAccess)
  | deleteTail (t : Nat) (a : FlowAccess)
  | retire (t : Nat) (a : FlowAccess)
  | flushMatch (t : Nat) (a : FlowAccess) (withPin viaExport byPolicy : Bool) (policy : BitVec 10)
  | flushMatchComplete (t : Nat)
  | deleteSlot (t : Nat) (a : FlowAccess)
  | flowBadOp (t : Nat) (a : FlowAccess) (op : BitVec 4)
  -- core and egress (07, 08)
  | announcementArrive (t : Nat) (s : Fin 4)
  | gapTimeout (t : Nat) (s : Fin 4) (p : Fin 34) (c : Fin 8)
  | copyBecomesHead (t : Nat) (p : Fin 34) (c : Fin 8)
  | txStart (t : Nat) (p : Fin 34) (ecc : Ecc)
  | copyTxEnd (t : Nat) (p : Fin 34) (ecc : Ecc)
  -- rules (03)
  | bundlePrepared (t : Nat)
  | deferredAddWrite (t : Nat) (row : Fin 32768)
  | ruleInvalidate (t : Nat) (m : Master) (row : Fin 32768)
  | ruleWriteValidate (t : Nat) (m : Master) (row : Fin 32768)
  | ruleRefresh (t : Nat) (m : Master) (row : Fin 32768)
  | ruleOpComplete (t : Nat)
  | tcamScrub (t : Nat) (s : Fin 4) (row : Fin 32768) (bad : Bool)
  -- forwarding database (04)
  | learnCommit (t : Nat)
  | ageTick (t : Nat)
  | fdbWalkVisit (t : Nat) (ecc : Ecc)
  | fdbAgeOut (t : Nat)
  | fdbSearch (t : Nat) (m : Master)
  | fdbNext (t : Nat) (m : Master) (byVid byPort : Bool) (port : BitVec 6) (vid : BitVec 12)
  | fdbInsert (t : Nat) (m : Master)
  | fdbDelete (t : Nat) (m : Master)
  | fdbDeleteIndex (t : Nat) (m : Master)
  | flushPort (t : Nat) (m : Master) (withPin byVid : Bool) (port : BitVec 6) (vid : BitVec 12)
  | fdbFlushComplete (t : Nat)
  | fdbBadOp (t : Nat) (m : Master) (op : BitVec 4)
  | shadowFetch (t : Nat) (ok : Bool) (data : List Byte)
  | shadowConfirmFetch (t : Nat) (ok : Bool) (index : Nat) (entry : BitVec 128)
  -- loops and engines of the core (07, 08, 09)
  | bufferThresholdEval (t : Nat)
  | freeListRebuild (t : Nat) (tile : FreeLink)
  | shaperTick (t : Nat) (p : Fin 32)
  | gateEntryChange (t : Nat) (p : Fin 32)
  | gateSwap (t : Nat) (p : Fin 32)
  | preemptHoldStart (t : Nat) (p : Fin 32) (c : Fin 8)
  | preemptionVerifyDone (t : Nat) (p : Fin 32) (ok : Bool)
  | portFlushDone (t : Nat) (p : Fin 34)
  | clockStep (t : Nat) (d : Fin 2) (seconds nanos : Nat)
  | timeCapture (t : Nat) (m : Master)
  | holdSpanStart (t : Nat) (s : Fin 4)
  | holdSpanEnd (t : Nat) (s : Fin 4)
  | wakePlanWrite (t : Nat) (spans : List HoldSpan) (planEnd : Nat)
  | planExpired (t : Nat)
  | recoveryResetTimeout (t : Nat) (h : Fin 32768)
  | nodeTableSweepVisit (t : Nat) (pos : Fin 8192)
  -- host attachment (10)
  | hostLinkTrained (t : Nat) (cxl : Bool) (speed width : Nat) (cache mem : Bool)
  | hostLinkReset (t : Nat) (kind : HostReset)
  | flr (t : Nat)
  | hostLinkError (t : LinkError)
  | barPoisonedWrite (t : Nat) (bar : Bar) (off : BitVec 29)
  | barBadSizeAccess (t : Nat) (bar : Bar) (off : BitVec 29) (shape : BarShape)
  | barUnassignedAccess (t : Nat) (bar : Bar) (off : BitVec 29) (wr : Bool)
  | hdmDormantRead (t : Nat) (addr : Nat)
  | ringConfigWrite (t : Nat) (m : Master) (r : Fin 36) (reg : RingReg) (value : BitVec 32)
  | ringStart (t : Nat) (m : Master) (r : Fin 36)
  | ringStop (t : Nat) (m : Master) (r : Fin 36)
  | ringStopped (t : Nat) (r : Fin 36)
  | ringDoorbell (t : Nat) (m : Master) (r : Fin 36) (value : BitVec 16) (posted : List Byte)
  | ringCoalesceTimeout (t : Nat) (r : Fin 36)
  | txDescriptorFetch (t : Nat) (r : Fin 16) (ok : Bool) (desc : List Byte)
  | txFrameIntake (t : Nat) (r : Fin 16) (ok : Bool) (buffer : List Byte)
  | rxWaitLimit (t : Nat) (c : Fin 8)
  | msixUnmask (t : Nat) (vector : Option (Fin 2048))
  -- processors and mailboxes (11)
  | groupStop (t : Nat) (src : Source) (g : Fin 3)
  | groupStart (t : Nat) (src : Source) (g : Fin 3)
  | groupRestart (t : Nat) (src : Source) (g : Fin 3)
  | groupCheckDone (t : Nat) (g : Fin 3) (ok : Bool)
  | restWait (t : Nat) (core : CoreId) (irq : Bool)
  | restSleep (t : Nat) (core : CoreId) (irq : Bool)
  | restDevice (t : Nat) (core : CoreId) (irq : Bool) (target : Nat)
  | coreWake (t : Nat) (core : CoreId) (ecc : Ecc)
  | coreAccessRefused (t : Nat) (core : CoreId) (addr : Nat) (kind : CoreAccess)
  | mbPost (t : Nat) (master : BitVec 4) (c : Fin 64) (tag : BitVec 16)
  | mbAck (t : Nat) (master : BitVec 4) (c : Fin 64) (tag code : BitVec 16)
  | mbAckcodeRead (t : Nat) (master : BitVec 4) (c : Fin 64)
  | mbResetTx (t : Nat) (master : BitVec 4) (c : Fin 64)
  | mbResetRx (t : Nat) (master : BitVec 4) (c : Fin 64)
  | mbAccessDenied (t : Nat) (master : BitVec 4) (c : Fin 64) (wr : Bool)
  | mbCrossing (t : Nat) (c : Fin 64)
  -- pairing (12)
  | sallarHeartbeatSend (t : Nat) (lane : Fin 2)
  | sallarLaneTimeout (t : Nat) (lane : Fin 2)
  | sallarFrameRx (t : Nat) (lane : Fin 2) (frame : List Byte)
  | sallarResend (t : Nat)
  | generatorMirrorBatch (t : Nat)
  | digestEmit (t : Nat)
  | heartbeatSend (t : Nat) (port : Fin 2)
  | heartbeatRx (t : Nat) (node : Nat) (port : Fin 2) (body : HeartbeatBody)
  | grant (t : Nat) (src epoch count : Nat)
  | anchorLeaseExpiry (t : Nat) (active : Fin 64)
  | leaseExpiry (t : Nat)
  | fenceDrainEnd (t : Nat)
  | promote (t : Nat) (src epoch : Nat)
  | demote (t : Nat) (src epoch : Nat)
  | assign (t : Nat) (src role epoch : Nat)
  | resyncClearDone (t : Nat)
  | bulkComplete (t : Nat)
  | anchorLost (t : Nat)
  | holdConfirmTimeout (t : Nat)
  -- domain (13)
  | pouvexFrameRx (t : Nat) (port : Fin 2) (frame : List Byte)
  | pouvexReassemblyTimeout (t : Nat) (src seq : Nat)
  | dictReq (t : Nat) (src seq : Nat) (body : List Byte)
  | dictRsp (t : Nat) (src : Nat) (body : List Byte)
  | relayResend (t : Nat) (node : Nat)
  | eventRx (t : Nat) (src : Nat) (body : List Byte)
  | eventAck (t : Nat) (n : Fin 1024) (seq : BitVec 16)
  | eventResend (t : Nat) (n : Fin 1024)
  | beaconSend (t : Nat)
  | beaconRx (t : Nat) (body : BeaconBody)
  | takeAnchorRole (t : Nat) (src : Source)
  | announceSend (t : Nat)
  | announceRx (t : Nat) (port : Fin 2) (body : AnnounceBody)
  | enrol (t : Nat) (src : Nat) (hash : List Byte) (node : Nat) (forward : Bool)
  | enrolAck (t : Nat) (src node result : Nat)
  | rosterLostTimeout (t : Nat) (n : Fin 64)
  | strangerTimeout (t : Nat) (i : Fin 16)
  | reEnrolNode (t : Nat) (src : Source) (node : BitVec 8)
  | withdrawResend (t : Nat)
  | withdrawRx (t : Nat) (src : Nat)
  | releaseNode (t : Nat) (src : Source) (node : BitVec 8)
  | releaseRx (t : Nat) (src : Nat) (flags : BitVec 8)
  -- power, clocks and loops (14)
  | pllLockLost (t : Nat) (pll : Pll)
  | pllRelock (t : Nat) (pll : Pll)
  | deviceStateRequest (t : Nat) (src : Source) (target : BitVec 8)
  | holdDrainEnd (t : Nat)
  | transitionComplete (t : Nat)
  | dormantEntry (t : Nat)
  | wakeNAssert (t : Nat)
  | dormantWakeTimer (t : Nat)
  | sliceIdleEntry (t : Nat) (s : Fin 4)
  | sliceReachesRun (t : Nat) (s : Fin 4)
  | frequencyLoopEval (t : Nat) (busy0 busy1 busy2 busy3 : Nat)
  | voltageLoopEval (t : Nat) (margin low high : Int)
  | avsbusStatusPoll (t : Nat) (done : Bool)
  | avsbusTimeout (t : Nat)
  | placementLoopEval (t : Nat)
  -- boot and identity (15)
  | coldReset (t : ColdReset)
  | warmReset (t : Nat)
  | warmResetRequest (t : Nat) (src : Source)
  | bootStepDone (t : Nat) (r : BootResult)
  | resumeBoot (t : Nat) (src : Source)
  | flashUpdateDone (t : Nat) (ok : Bool)
  | securityVersionAdvance (t : Nat) (src : Source) (owner : Bool) (value : BitVec 8)
  | ownerKeyProgram (t : Nat) (src : Source) (hash : List Byte)
  | ownerCoSignature (t : Nat) (src : Source)
  | decommission (t : Nat) (src : Source)
  | lowerTreeReady (t : Nat)
  | leafRenewal (t : Nat)
  | attestationRequest (t : Nat) (src : Source) (nonce : List Byte)
  | reportReady (t : Nat) (anchorSlot : Bool)
  | attestTokenRefill (t : Nat)
  -- counters and split log (16)
  | samplerTokenRefill (t : Nat) (k : Fin 8)
  | splitLogMove (t : Nat)
  -- front panel and thermal (17)
  | senseChainScan (t : Nat) (bits : BitVec 72)
  | ledChainLatch (t : Nat)
  | modulePresenceChange (t : Nat) (c : Fin 32)
  | serviceButtonRelease (t : Nat)
  | serviceButtonLongPress (t : Nat)
  | serviceButtonWake (t : Nat)
  | identifyTimeout (t : Nat)
  | thermalSample (t : Nat) (temps : Temps)
  -- host and firmware events (10, 08, 14, 05, 06)
  | configurationWrite (t : Nat) (bit : CfgBit) (value : Bool)
  | hdmDecoderCommit (t : Nat) (d : Fin 2) (base size skip : Nat) (ways : Nat) (lock : Bool)
  | perstNRelease (t : Nat)
  | grandmasterChange (t : Nat) (d : Fin 2) (gm : GmChange)
  | receiverAdaptation (t : Nat) (lane : Fin 36) (code : Nat)
  | judgeExceptionTaken (t : Nat)
  | expiryNoticeTaken (t : Nat)
  | ipfixMessageSend (t : Nat) (frame : List Byte)
  deriving DecidableEq, Repr

end Sys2Proof
end

