-- ==== Sys2Proof/Decode.lean ====
section
/-! DEFINITION. The commands of the table carry no bits: the block has no instruction words and nothing to decode. -/
namespace Sys2Proof

/-- The command that a word spells by the table's bits. No row of spec/opcode_table.json gives bits: none. -/
def decodeTableWord (_nbits _w : Nat) : Option Instr := none

end Sys2Proof
end

