-- ==== Sys2Proof/Config.lean ====
section
/-! DEFINITION. What a unit fixes and what the manual leaves open: constants without a body, of which nothing can be
proved, and one plain list of what they stand for. Log entries 7, 8 and 14. -/
namespace Sys2Proof.Config

/-- The next value that the manual leaves open, drawn by the state's counter of draws. -/
opaque freeNat : Nat → Nat

/-- SHA-256, used by reference (15 R393). -/
opaque sha256 : List Byte → List Byte

/-- Verification of an HSS signature under a public key over a header (15 R393; RFC 8554): key, header, signature. -/
opaque hssVerify : List Byte → List Byte → List Byte → Bool

/-- The signature a device makes over a report with the leaf given (15 R404, R406): leaf, report. -/
opaque hssSign : Nat → List Byte → List Byte

/-- The unit's serial number, 8 bytes (00 Table 0.3, fused). -/
opaque serial : List Byte

/-- SHA-256 of the unit's identity public key, 32 bytes (00 Table 0.3). -/
opaque identityHash : List Byte

/-- The unit's identity public key, 60 bytes (15 Table 15.8). -/
opaque identityKey : List Byte

/-- The fused hash of the Galelek root key, 32 bytes (15 Table 15.2). -/
opaque rootHash : List Byte

/-- The fused minimum voltage of each slice step, mV (14 Table 14.12). -/
opaque fusedMillivolts : Nat → Nat

/-- Does a host link whose L1 is enabled rest in it at an instant (10 Table 10.1; log entry 86)? -/
opaque linkRests : Nat → Bool

/-- Does fuse `n` of the array fail its read-back (15 R390)? -/
opaque fuseWeak : Nat → Bool

/-- Does field `n` read back uncorrectable when it is programmed (15 R390): 0 OWNER_HASH, 1 CO_SIGN, 2 LIFECYCLE? -/
opaque fuseUncorrectable : Nat → Bool

/-- The rail voltage that the Starter reads at boot, above 790 mV and modulo 21 (17 R432). -/
opaque railMillivolts : Nat

/-- The phase of a blinking output of the LED chain, ps (17 Table 17.7, R439). -/
opaque ledPhase : Nat → Nat

/-- A word of the CXL link capability in BAR4, and of the other component registers whose value the manual does not give (10
R267; log entry 80): the offset. -/
opaque componentWord : Nat → BitVec 32

end Sys2Proof.Config
end

