-- ==== Sys2Proof/Machine/Counters.lean ====
section
/-! DEFINITION. The counter numbers of the part, laid out family by family as 16 R409 to R411 say: the chapters in reading
order, the rows of each counter table in order, the counters of a row in the order it names them, one number for each
value of a reason. `u` is the unit: a port; 8 times the port plus the class; a slice; a queue; a row; a handle; a member
of a small set. `v` is the value. Which counters are wide is a reading of R411 (log entry 13). -/
namespace Sys2Proof.Machine.Num

/-! Chapter 03. -/
def rxFrames (u : Nat) : Nat := 0x1000 + 256 * u
def rxBytes (u : Nat) : Nat := 0x1000 + 256 * u + 2
def fcsErrors (u : Nat) : Nat := 0x1000 + 256 * u + 4
def upstreamStomps (u : Nat) : Nat := 0x1000 + 256 * u + 5
def undersize (u : Nat) : Nat := 0x1000 + 256 * u + 6
def oversize (u : Nat) : Nat := 0x1000 + 256 * u + 7
def macControl (u : Nat) : Nat := 0x1000 + 256 * u + 8
def stagingFrames (u : Nat) : Nat := 0x1000 + 256 * u + 9
def stagingBytes (u : Nat) : Nat := 0x1000 + 256 * u + 11
def reconfigFlushes (u : Nat) : Nat := 0x1000 + 256 * u + 13
def frameTypeDrops (u : Nat) : Nat := 0x1000 + 256 * u + 14
def ingressFilterDrops (u : Nat) : Nat := 0x1000 + 256 * u + 15
def parseExceptions (u : Nat) (v : Nat) : Nat := 0x1000 + 256 * u + 16 + v
def ruleDrops (u : Nat) : Nat := 0x1000 + 256 * u + 20
def ruleHits (u : Nat) : Nat := 0x90000 + 2 * u
def defaultHits (u : Nat) : Nat := 0 + 2 * u
def framesNumbered (u : Nat) : Nat := 0x6000 + 256 * u

/-! Chapter 04. -/
def saDrops (u : Nat) : Nat := 0x1000 + 256 * u + 21
def daDrops (u : Nat) : Nat := 0x1000 + 256 * u + 22
def samePortDrops (u : Nat) : Nat := 0x1000 + 256 * u + 23
def egressFilterDrops (u : Nat) : Nat := 0x1000 + 256 * u + 24
def unknownDrops (u : Nat) : Nat := 0x1000 + 256 * u + 25
def invalidSa (u : Nat) : Nat := 0x1000 + 256 * u + 26
def learnQueueDrops (u : Nat) : Nat := 0x6000 + 256 * u + 2
def learns (u : Nat) : Nat := 0x1000 + 256 * u + 28
def moves (u : Nat) : Nat := 0x1000 + 256 * u + 29
def contests (u : Nat) : Nat := 0x1000 + 256 * u + 30
def pinnedContests (u : Nat) : Nat := 0x1000 + 256 * u + 31
def lockRefusals (u : Nat) : Nat := 0x1000 + 256 * u + 32
def tableFull : Nat := 8
def ageOuts : Nat := 9
def flushedEntries (u : Nat) : Nat := 0x1000 + 256 * u + 33
def flushSuppressions (u : Nat) : Nat := 0x1000 + 256 * u + 34
def logLost : Nat := 10
def shadowMismatches : Nat := 11
def shadowTransients : Nat := 12
def shadowFailures : Nat := 13

/-! Chapter 05. -/
def headHits (u : Nat) : Nat := 0x6000 + 256 * u + 3
def tailHits (u : Nat) : Nat := 0x6000 + 256 * u + 5
def memoryLookups (u : Nat) : Nat := 0x6000 + 256 * u + 7
def offHome (u : Nat) : Nat := 0x6000 + 256 * u + 9
def misses (u : Nat) : Nat := 0x6000 + 256 * u + 11
def keyTypeMismatches (u : Nat) : Nat := 0x1000 + 256 * u + 35
def unadmitted (u : Nat) : Nat := 0x1000 + 256 * u + 36
def hwAdmissions : Nat := 14
def patJoins : Nat := 15
def judgeExceptions : Nat := 16
def admissionFailures (v : Nat) : Nat := 17 + v
def relocMoves : Nat := 22
def relocRetries : Nat := 23
def chainLimit : Nat := 24
def lateUpdates : Nat := 25
def flowAgeOuts : Nat := 26
def expiryNotices : Nat := 27
def retires : Nat := 28
def revivals : Nat := 29
def sweepStalls : Nat := 30
def poisoned : Nat := 31
def poisonFrames : Nat := 32
def flushedRecords : Nat := 33
def hdmWritesDiscarded : Nat := 34

/-! Chapter 06. -/
def actionRange : Nat := 35
def noMember : Nat := 36
def repins : Nat := 37
def translations : Nat := 38
def reverseResolutions : Nat := 39
def unresolved : Nat := 40
def bindingMismatches : Nat := 41
def translationPending : Nat := 42
def translationFailures : Nat := 43
def translationExceptions (v : Nat) : Nat := 44 + v
def green : Nat := 47
def yellow : Nat := 48
def red : Nat := 49
def meterDrops : Nat := 50
def ctInvalidDropped : Nat := 51
def ctInvalidPassed : Nat := 52
def pickups : Nat := 53
def unidirectional : Nat := 54
def latencySamples : Nat := 55
def activeNotices : Nat := 56
def skippedNotices : Nat := 57
def withdrawnUpdates : Nat := 58
def withdrawalConflicts : Nat := 59
def falseStarts (u : Nat) (v : Nat) : Nat := 0x1000 + 256 * u + 38 + v

/-! Chapter 07. -/
def copiesRefused (u : Nat) (v : Nat) : Nat := 0x1000 + 256 * u + 41 + v
def queueRefused (u : Nat) : Nat := 0x10000 + 8 * u
def lateDropped (u : Nat) : Nat := 0x1000 + 256 * u + 46
def eccDropped (u : Nat) : Nat := 0x1000 + 256 * u + 48
def voidCopies (u : Nat) : Nat := 0x1000 + 256 * u + 50
def numbersSkipped (u : Nat) (v : Nat) : Nat := 0x6000 + 256 * u + 13 + v
def lateAnnouncements (u : Nat) : Nat := 0x6000 + 256 * u + 15
def cutThrough (u : Nat) : Nat := 0x1000 + 256 * u + 52
def txStompedFrames (u : Nat) : Nat := 0x1000 + 256 * u + 54
def txStompedBytes (u : Nat) : Nat := 0x1000 + 256 * u + 56
def localStomps (u : Nat) (v : Nat) : Nat := 0x1000 + 256 * u + 58 + v
def freeListRebuilds : Nat := 60
def shortfallsEnded : Nat := 61
def mirrorOffered (u : Nat) : Nat := 62 + 3 * u
def mirrorMade (u : Nat) : Nat := 63 + 3 * u
def mirrorDropped (u : Nat) : Nat := 64 + 3 * u

/-! Chapter 08. -/
def txFrames (u : Nat) : Nat := 0x1000 + 256 * u + 62
def txBytes (u : Nat) : Nat := 0x1000 + 256 * u + 64
def queueSent (u : Nat) : Nat := 0x10000 + 8 * u + 2
def queueBytes (u : Nat) : Nat := 0x10000 + 8 * u + 4
def sduDrops (u : Nat) : Nat := 0x4000 + 16 * u
def gateDrops (u : Nat) : Nat := 0x4000 + 16 * u + 1
def windowWaits (u : Nat) : Nat := 0x4000 + 16 * u + 2
def portDownDrops (u : Nat) : Nat := 0x4000 + 16 * u + 4
def gateSwaps (u : Nat) : Nat := 0x1000 + 256 * u + 66
def fragmentsSent (u : Nat) : Nat := 0x1000 + 256 * u + 67
def fragmentsReceived (u : Nat) : Nat := 0x1000 + 256 * u + 68
def framesReassembled (u : Nat) : Nat := 0x1000 + 256 * u + 69
def assemblyErrors (u : Nat) : Nat := 0x1000 + 256 * u + 71
def smdErrors (u : Nat) : Nat := 0x1000 + 256 * u + 72
def holds (u : Nat) : Nat := 0x1000 + 256 * u + 73
def holdSpans (u : Nat) : Nat := 0x6000 + 256 * u + 16
def planExpired (u : Nat) : Nat := 0x6000 + 256 * u + 17
def gptpMessages (u : Nat) (v : Nat) : Nat := 0x1000 + 256 * u + 74 + v

/-! Chapter 09. -/
def generated (u : Nat) : Nat := 0xA0000 + 9 * u
def accepted (u : Nat) : Nat := 0xA0000 + 9 * u + 1
def duplicates (u : Nat) : Nat := 0xA0000 + 9 * u + 2
def rogue (u : Nat) : Nat := 0xA0000 + 9 * u + 3
def lost (u : Nat) : Nat := 0xA0000 + 9 * u + 4
def outOfOrder (u : Nat) : Nat := 0xA0000 + 9 * u + 5
def tagless (u : Nat) : Nat := 0xA0000 + 9 * u + 6
def leaps (u : Nat) : Nat := 0xA0000 + 9 * u + 7
def recoveryResets (u : Nat) : Nat := 0xA0000 + 9 * u + 8
def duplicateDropped (u : Nat) : Nat := 0x1000 + 256 * u + 102
def noTrailer (u : Nat) : Nat := 0x1000 + 256 * u + 104
def wrongLan (u : Nat) : Nat := 0x1000 + 256 * u + 106
def untaggedOnRing (u : Nat) : Nat := 0x1000 + 256 * u + 107
def returnedFrames (u : Nat) : Nat := 0x1000 + 256 * u + 108
def ownFrames (u : Nat) : Nat := 0x1000 + 256 * u + 110
def prpAccepts (u : Nat) : Nat := 0x1000 + 256 * u + 112
def prpDuplicates (u : Nat) : Nat := 0x1000 + 256 * u + 113
def prpRogue (u : Nat) : Nat := 0x1000 + 256 * u + 114
def nodeTableFull : Nat := 110
def nodesRemoved : Nat := 111

/-! Chapter 10. -/
def ringFramesIn (u : Nat) : Nat := 112 + 4 * u
def ringBytesIn (u : Nat) : Nat := 114 + 4 * u
def descRefused (u : Nat) (v : Nat) : Nat := 176 + 3 * u + v
def fetchedDiscarded : Nat := 224
def ringFramesOut (u : Nat) : Nat := 225 + 4 * u
def ringBytesOut (u : Nat) : Nat := 227 + 4 * u
def ringStoppedDrops (u : Nat) : Nat := 289 + 3 * u
def ringFullDrops (u : Nat) : Nat := 290 + 3 * u
def badDescriptors (u : Nat) : Nat := 291 + 3 * u
def logWritten (u : Nat) : Nat := 337 + 2 * u
def logRingLost (u : Nat) : Nat := 338 + 2 * u
def hdmReads : Nat := 345
def hdmDormantReads : Nat := 346
def hostAccesses (v : Nat) : Nat := 347 + v

/-! Chapter 11. -/
def mbPosts (u : Nat) : Nat := 351 + 2 * u
def mbDropped (u : Nat) : Nat := 352 + 2 * u
def mbAcks (u : Nat) : Nat := 479 + 3 * u
def mbRefusedAcks (u : Nat) : Nat := 480 + 3 * u
def mbOrphanAcks (u : Nat) : Nat := 481 + 3 * u
def mbAutoAcks (u : Nat) (v : Nat) : Nat := 671 + 2 * u + v
def mbResets (u : Nat) (v : Nat) : Nat := 799 + 2 * u + v
def mbCrossings (u : Nat) : Nat := 927 + 1 * u
def mbDenied : Nat := 959
def restEntries (u : Nat) (v : Nat) : Nat := 960 + 3 * u + v

/-! Chapter 12. -/
def standbyDiscards (u : Nat) : Nat := 0x1000 + 256 * u + 115
def fenceDiscards (u : Nat) : Nat := 0x1000 + 256 * u + 116
def drainDrops (u : Nat) : Nat := 0x1000 + 256 * u + 117
def recordsSent (u : Nat) : Nat := 1008 + 2 * u
def recordsApplied (u : Nat) : Nat := 1009 + 2 * u
def resends : Nat := 1032
def duplicateRecords : Nat := 1033
def staleEpoch : Nat := 1034
def lateGrants : Nat := 1035
def grantsAccepted : Nat := 1036
def takeovers : Nat := 1037
def refusedPromotions : Nat := 1038
def heldIntervals : Nat := 1039

/-! Chapter 13. -/
def pouvexSent (u : Nat) : Nat := 1040 + 3 * u
def pouvexReceived (u : Nat) : Nat := 1041 + 3 * u
def pouvexRelayed (u : Nat) : Nat := 1042 + 3 * u
def pouvexDiscarded (u : Nat) (v : Nat) : Nat := 1046 + 3 * u + v
def reassemblyFailures : Nat := 1052
def pouvexDuplicates : Nat := 1053
def requestsServed : Nat := 1054
def requestsBusy : Nat := 1055
def responsesRepeated : Nat := 1056
def relayResends : Nat := 1057
def relayFailures : Nat := 1058
def eventsForwarded : Nat := 1059
def eventsLogged : Nat := 1060
def holdDiscards (u : Nat) : Nat := 0x1000 + 256 * u + 118
def strangersRefused : Nat := 1061

/-! Chapter 14. -/
def powerHoldDiscards (u : Nat) : Nat := 0x1000 + 256 * u + 119
def powerHoldDrops (u : Nat) : Nat := 0x1000 + 256 * u + 120
def timeInState (u : Nat) (v : Nat) : Nat := 0x6000 + 256 * u + 18 + 2 * v
def wakes (u : Nat) (v : Nat) : Nat := 0x6000 + 256 * u + 24 + v
def deviceTransitions : Nat := 1062
def powerRefused : Nat := 1063
def powerReplaced : Nat := 1064
def pllLosses (u : Nat) : Nat := 1065 + 1 * u
def loopUp (u : Nat) : Nat := 1107 + 3 * u
def loopDown (u : Nat) : Nat := 1108 + 3 * u
def loopHeld (u : Nat) : Nat := 1109 + 3 * u
def avsRetries : Nat := 1122
def avsFaults : Nat := 1123

/-! Chapter 15. -/
def reportsSigned (u : Nat) : Nat := 1124 + 4 * u
def reportsUnsigned (u : Nat) (v : Nat) : Nat := 1125 + 4 * u + v
def renewals : Nat := 1132
def fuseFailures : Nat := 1133
def imagesRefused (v : Nat) : Nat := 1134 + v

/-! Chapter 16. -/
def sampOffered (u : Nat) : Nat := 1140 + 4 * u
def sampMerged (u : Nat) : Nat := 1141 + 4 * u
def sampLimited (u : Nat) : Nat := 1142 + 4 * u
def sampFiltered (u : Nat) : Nat := 1143 + 4 * u
def samplesDone : Nat := 1172
def samplesLost : Nat := 1173
def eccCorrected (u : Nat) : Nat := 1174 + 2 * u
def eccUncorrectable (u : Nat) : Nat := 1175 + 2 * u
def uncorrectableDrops (u : Nat) : Nat := 0x1000 + 256 * u + 121
def freezes : Nat := 1190
def dumpsDone : Nat := 1191
def dumpsFailed : Nat := 1192
def localWritten (u : Nat) : Nat := 1193 + 2 * u
def localLost (u : Nat) : Nat := 1194 + 2 * u

/-! Chapter 17. -/
def insertions (u : Nat) : Nat := 0x1000 + 256 * u + 122
def removals (u : Nat) : Nat := 0x1000 + 256 * u + 123
def bounces (u : Nat) : Nat := 0x1000 + 256 * u + 124
def buttonPresses (v : Nat) : Nat := 1197 + v
def thermalWarnings : Nat := 1200

end Sys2Proof.Machine.Num
end

