-- ==== Sys2Proof/Machine/Bits.lean ====
section
/-! DEFINITION. Bit fields, byte order, checksums and sparse tables: the arithmetic that every family shares. -/
namespace Sys2Proof.Machine

/-! ### Bit fields and byte order (00 R3, R4) -/

/-- Field [lo+n-1:lo] of `x`. -/
def bits (x lo n : Nat) : Nat := x / 2 ^ lo % 2 ^ n

/-- Bit `i` of `x`. -/
def bit (x i : Nat) : Bool := x.testBit i

/-- `x` with field [lo+n-1:lo] set to `v`. -/
def setBits (x lo n v : Nat) : Nat :=
  x - bits x lo n * 2 ^ lo + v % 2 ^ n * 2 ^ lo

/-- One when the condition holds. -/
def b1 (c : Bool) : Nat := if c then 1 else 0

/-- `2 ^ i` when the condition holds: one flag of a set. -/
def flagIf (c : Bool) (i : Nat) : Nat := if c then 2 ^ i else 0

/-- A byte from a number. -/
def byte (n : Nat) : Byte := BitVec.ofNat 8 n

/-- The value of bytes with the least significant first (00 R3). -/
def leVal : List Byte → Nat
  | [] => 0
  | b :: bs => b.toNat + 256 * leVal bs

/-- The value of bytes with the most significant first (00 R4). -/
def beVal (bs : List Byte) : Nat := bs.foldl (fun a b => 256 * a + b.toNat) 0

/-- `n` bytes of `v`, least significant first. -/
def leBytes : (n : Nat) → (v : Nat) → List Byte
  | 0, _ => []
  | n + 1, v => byte v :: leBytes n (v / 256)

/-- `n` bytes of `v`, most significant first. -/
def beBytes (n v : Nat) : List Byte := (leBytes n v).reverse

/-- `n` bytes from offset `off`, reading 0 past the end. -/
def slice (bs : List Byte) (off n : Nat) : List Byte :=
  let r := (bs.drop off).take n
  r ++ List.replicate (n - r.length) 0

/-- Little-endian field of `n` bytes at `off`. -/
def leAt (bs : List Byte) (off n : Nat) : Nat := leVal ((bs.drop off).take n)

/-- Big-endian field of `n` bytes at `off`, bytes past the end reading 0. -/
def beAt (bs : List Byte) (off n : Nat) : Nat := beVal (slice bs off n)

/-- Byte `i`, 0 past the end. -/
def byteAt (bs : List Byte) (i : Nat) : Nat := (bs.getD i 0).toNat

/-- The bits set in either of two byte strings. -/
def orBytes : List Byte → List Byte → List Byte
  | [], b => b
  | a, [] => a
  | x :: a, y :: b => (x ||| y) :: orBytes a b

/-- `bs` with the bytes of `new` written from offset `off`. -/
def splice (bs : List Byte) (off : Nat) (new : List Byte) : List Byte :=
  slice bs 0 off ++ new ++ bs.drop (off + new.length)

/-- The integer of an `n`-byte two's complement value. -/
def signed (n v : Nat) : Int := if v < 2 ^ (8 * n - 1) then v else (v : Int) - 2 ^ (8 * n)

/-- An integer as an `n`-byte two's complement value. -/
def twos (n : Nat) (i : Int) : Nat := (i % 2 ^ (8 * n)).toNat

/-- Is `n` a power of two, 1 included? -/
def isPow2 (n : Nat) : Bool := n != 0 && (n &&& (n - 1)) == 0

/-- `x` rounded down to a multiple of `m`. -/
def alignDown (x m : Nat) : Nat := x / m * m

/-! ### Checksums (02 R459; IEEE 802.3) -/

/-- One shift of a reflected CRC with the reflected polynomial `poly`. -/
def crcShift (poly c : Nat) : Nat := if c % 2 = 1 then (c / 2) ^^^ poly else c / 2

/-- Eight shifts: one byte taken least significant bit first. -/
def crcByte (poly c : Nat) (b : Byte) : Nat :=
  let f := crcShift poly
  f (f (f (f (f (f (f (f (c ^^^ b.toNat))))))))

/-- A CRC over bytes in order, from `init`, with the final XOR of 0xFFFF_FFFF. -/
def crc (poly init : Nat) (bs : List Byte) : Nat :=
  bs.foldl (crcByte poly) init ^^^ 0xFFFFFFFF

/-- CRC-32C with a seed: the Castagnoli polynomial 0x1EDC_6F41 reflected (02 R459). DESIGN CHOICE (log entry 90): bit n of the
seed is loaded as bit n of the reflected register; the manual gives no worked value with a seed. -/
def crc32cSeed (seed : Nat) (bs : List Byte) : Nat := crc 0x82F63B78 seed bs

/-- CRC-32C with the initial value 0xFFFF_FFFF (02 R459). -/
def crc32c (bs : List Byte) : Nat := crc32cSeed 0xFFFFFFFF bs

/-- The CRC-32 of IEEE 802.3, the FCS of a frame. -/
def crc32 (bs : List Byte) : Nat := crc 0xEDB88320 0xFFFFFFFF bs

/-! ### Sparse tables in one canonical form: numbers strictly rising -/

/-- The value at `k`, if one is listed. -/
def tfind {α : Type} (t : Tab α) (k : Nat) : Option α :=
  match t with
  | [] => none
  | (i, v) :: r => if i = k then some v else tfind r k

/-- The value at `k`, `d` where none is listed. -/
def tget {α : Type} (t : Tab α) (k : Nat) (d : α) : α := (tfind t k).getD d

/-- `t` with nothing listed at `k`. -/
def tdel {α : Type} : Tab α → Nat → Tab α
  | [], _ => []
  | (i, v) :: r, k => if i = k then tdel r k else (i, v) :: tdel r k

/-- `t` with `v` listed at `k`, in rising order. -/
def tput {α : Type} : Tab α → Nat → α → Tab α
  | [], k, v => [(k, v)]
  | (i, w) :: r, k, v =>
    if k < i then (k, v) :: (i, w) :: r
    else if k = i then (k, v) :: r
    else (i, w) :: tput r k v

/-- `t` holding `v` at `k`, where an unlisted number holds `d`: nothing is listed that equals `d`. -/
def tset {α : Type} [DecidableEq α] (d : α) (t : Tab α) (k : Nat) (v : α) : Tab α :=
  if v = d then tdel t k else tput t k v

/-- The value at `k` changed by `f`. -/
def tmod {α : Type} [DecidableEq α] (d : α) (t : Tab α) (k : Nat) (f : α → α) : Tab α :=
  tset d t k (f (tget t k d))

/-- Every number of `t` is above `k`, and they rise strictly. -/
def Rising {α : Type} : Option Nat → Tab α → Bool
  | _, [] => true
  | none, (i, _) :: r => Rising (some i) r
  | some k, (i, _) :: r => decide (k < i) && Rising (some i) r

/-- The canonical form: numbers strictly rising, and no entry equal to what an unlisted number holds. -/
def Tab.wf {α : Type} [DecidableEq α] (d : α) (t : Tab α) : Bool :=
  Rising none t && t.all fun e => decide (e.2 ≠ d)

/-- The first index at which `p` holds. -/
def findFrom {α : Type} (p : α → Bool) : Nat → List α → Option Nat
  | _, [] => none
  | n, a :: r => if p a then some n else findFrom p (n + 1) r

/-- The first index at which `p` holds. -/
def findIdx {α : Type} (p : α → Bool) (l : List α) : Option Nat := findFrom p 0 l

/-- The numbers below `n` at which `p` holds, rising. -/
def below (n : Nat) (p : Nat → Bool) : List Nat := (List.range n).filter p

/-- The lowest number from `lo` of the next `n` at which `p` holds. -/
def firstFrom (lo n : Nat) (p : Nat → Bool) : Option Nat :=
  match n with
  | 0 => none
  | m + 1 => if p lo then some lo else firstFrom (lo + 1) m p

/-- The element of `l` with the least measure, the first of equals. -/
def leastBy {α : Type} (m : α → Nat) : List α → Option α
  | [] => none
  | a :: r =>
    match leastBy m r with
    | none => some a
    | some b => if m a ≤ m b then some a else some b

end Sys2Proof.Machine
end

