-- ==== Sys2Proof/Machine/Entries.lean ====
section
/-! DEFINITION. The Lysram dictionary's tables: every entry with its type, access, class, default and range, as the
chapters' own tables give them (Tables 0.3, 2.5, 3.8, 3.9, 4.8, 5.11, 6.11, 7.6, 8.7, 9.6, 10.17, 11.15, 12.9, 13.8, 14.9,
14.12, 15.8, 16.10, 17.13; 18 R453, R454). -/
namespace Sys2Proof.Machine

/-- The types of Table 2.1. An enumeration lists its values; a block states its largest size and whether that size is
the only one. -/
inductive Ty where
  | bool | u8 | u16 | u32 | u64 | i32 | i64 | time | ptime | bits32
  | enum (values : List Nat)
  | octet (n : Nat)
  | block (max : Nat) (exact : Bool)
  deriving DecidableEq, Repr

/-- The access columns of the tables, host-secure / host-nonsecure / anchor. -/
inductive Acc where
  /-- R / R / R -/
  | ro
  /-- RW / R / RW -/
  | rw
  /-- W / — / W -/
  | cmd
  /-- RW / — / RW -/
  | rwHidden
  /-- RW / — / — -/
  | secureRw
  /-- R / — / — -/
  | secureR
  /-- W / — / — -/
  | secureW
  /-- — / — / R -/
  | anchorR
  /-- RW / R / R -/
  | secureOwn
  deriving DecidableEq, Repr

/-- The change classes (02 R27 to R30). A staged entry of unit u belongs to group `g + u / div`, or `g` when `div` is 0. -/
inductive Cls where
  | live | fixed | halt | refill
  | staged (g : Nat) (div : Nat)
  deriving DecidableEq, Repr

/-- Who serves an entry (18 Table 18.3). -/
inductive Server where
  | engine | marshal | timekeepers | starter
  deriving DecidableEq, Repr

/-- One row of a dictionary table: `count` indices from `base`, `subs` sub-indices from `sub`. -/
structure Row where
  base : Nat
  count : Nat := 1
  sub : Nat := 0
  subs : Nat := 1
  ty : Ty
  acc : Acc := .ro
  cls : Cls := .live
  /-- the Default column as a little-endian number -/
  dflt : Nat := 0
  /-- smallest and largest value a write may carry -/
  lo : Int := -9223372036854775808
  hi : Int := 18446744073709551615
  /-- values must be multiples of it -/
  step : Nat := 1
  /-- the value 0 is allowed beside the range -/
  zeroToo : Bool := false
  /-- the value 0xFF is allowed beside the range -/
  ffToo : Bool := false
  /-- the bits that are not reserved (00 R2) -/
  keep : Nat := 0xFFFFFFFFFFFFFFFF
  server : Server := .engine
  deriving Repr

/-- The bytes of a value of a type; 0 for a block. -/
def Ty.size : Ty → Nat
  | .bool => 1 | .u8 => 1 | .enum _ => 1 | .u16 => 2 | .u32 => 4 | .i32 => 4 | .bits32 => 4
  | .u64 => 8 | .i64 => 8 | .time => 8 | .ptime => 10
  | .octet n => n
  | .block _ _ => 0

def Ty.isBlock : Ty → Bool
  | .block _ _ => true
  | _ => false

/-- 1 second in nanoseconds. -/
def secNs : Nat := 1000000000

/-- Chapters 00 and 02. -/
def rows02 : List Row := [
  { base := 0x1000, ty := .u32, cls := .fixed, dflt := 0x47414C4B },
  { base := 0x1001, ty := .u16, cls := .fixed, dflt := 0x3216 },
  { base := 0x1002, ty := .u16, cls := .fixed, dflt := 0x4200 },
  { base := 0x1003, ty := .u32, cls := .fixed, dflt := 0x00004832 },
  { base := 0x1008, ty := .octet 16, cls := .fixed, dflt := 0x32482D3631323354 },
  { base := 0x1009, ty := .octet 8, cls := .fixed },
  { base := 0x100A, ty := .octet 32, cls := .fixed },
  { base := 0x1010, count := 4, ty := .u32, cls := .fixed },
  { base := 0x1018, ty := .u16, cls := .fixed, dflt := 1 },
  { base := 0x1100, ty := .enum [0, 1], cls := .fixed },
  { base := 0x1101, ty := .time, acc := .rw, dflt := 100000000, lo := 1000000, hi := 10000000000 },
  { base := 0x1102, ty := .time, acc := .rw, dflt := 1000000000, lo := 10000000, hi := 60000000000 },
  { base := 0x1103, ty := .bool, cls := .fixed },
  { base := 0x1200, ty := .u8, cls := .fixed, dflt := 0xFF },
  { base := 0x1200, sub := 1, subs := 255, ty := .u32 },
  { base := 0x1201, sub := 1, subs := 255, ty := .ptime },
  { base := 0x1202, sub := 1, subs := 255, ty := .u8 },
  { base := 0x1210, sub := 1, subs := 3, ty := .u64 }]

/-- Chapter 03. P32 and P33 have no sub-indices 0x01 to 0x03 (R81). -/
def rows03 : List Row := [
  { base := 0x2000, count := 32, sub := 1, ty := .enum [0, 1, 2, 3, 4, 5, 6], acc := .rw, cls := .staged 0x20 8 },
  { base := 0x2000, count := 32, sub := 2, ty := .enum [0, 1, 2], acc := .rw, cls := .staged 0x20 8 },
  { base := 0x2000, count := 32, sub := 3, ty := .enum [0, 1, 2, 3], acc := .rw, cls := .staged 0x20 8 },
  { base := 0x2000, count := 34, sub := 4, ty := .u16, acc := .rw, dflt := 10240, lo := 1518, hi := 10240 },
  { base := 0x2000, count := 34, sub := 5, ty := .u16, acc := .rw, dflt := 1, lo := 1, hi := 4094 },
  { base := 0x2000, count := 34, sub := 6, ty := .enum [0, 1, 2], acc := .rw },
  { base := 0x2000, count := 34, sub := 7, ty := .u32, acc := .rw, dflt := 0x00FAC688, keep := 0xFFFFFF },
  { base := 0x2000, count := 34, sub := 8, ty := .u16, acc := .rw, dflt := 256, lo := 64, hi := 256, step := 16 },
  { base := 0x2000, count := 34, sub := 9, ty := .enum [0, 1], acc := .rw },
  { base := 0x2000, count := 34, sub := 10, ty := .enum [0, 1, 2], acc := .rw },
  { base := 0x2040, count := 32, sub := 1, ty := .enum [0, 1, 2] },
  { base := 0x2040, count := 32, sub := 2, ty := .u32, acc := .rw, hi := 0 },
  { base := 0x2100, sub := 1, ty := .u16, acc := .rw, dflt := 4789 },
  { base := 0x2100, sub := 2, ty := .bits32, acc := .rw, dflt := 3, keep := 3 },
  { base := 0x2100, sub := 3, ty := .u8, acc := .rw, dflt := 4, lo := 0, hi := 8 },
  { base := 0x2200, ty := .block 32768 true, acc := .rw, cls := .staged 0x12 0 },
  { base := 0x2300, sub := 1, ty := .u8 },
  { base := 0x2300, sub := 2, ty := .u8, dflt := 1 },
  { base := 0x2300, sub := 3, ty := .u32 },
  { base := 0x2300, sub := 4, subs := 4, ty := .u32 },
  { base := 0x2300, sub := 8, ty := .enum [0, 1, 2, 3] },
  { base := 0x2301, ty := .block 5242896 false, acc := .rw, cls := .staged 0x10 0 },
  { base := 0x2302, ty := .octet 16, acc := .rw, cls := .staged 0x10 0 },
  { base := 0x2303, ty := .block 5242880 true },
  { base := 0x2304, ty := .enum [0, 1], acc := .rw }]

/-- Chapter 04. -/
def rows04 : List Row := [
  { base := 0x2400, sub := 1, ty := .u32, cls := .fixed, dflt := 0x5A17C3E1 },
  { base := 0x2400, sub := 2, ty := .u32, cls := .fixed, dflt := 0x9D046B2F },
  { base := 0x2400, sub := 3, ty := .time, acc := .rw, cls := .staged 0x14 0, dflt := 100000000,
    lo := 1000000, hi := 1000000000, step := 1000000 },
  { base := 0x2400, sub := 4, ty := .u16, acc := .rw, cls := .staged 0x14 0, dflt := 3000 },
  { base := 0x2400, sub := 5, ty := .time, acc := .rw, dflt := 1000000, lo := 0, hi := 1000000000 },
  { base := 0x2400, sub := 6, ty := .u32 },
  { base := 0x2400, sub := 7, ty := .u16 },
  { base := 0x2400, sub := 8, ty := .u16, acc := .rw, hi := 0 },
  { base := 0x2401, ty := .block 4096 true, acc := .rw, cls := .staged 0x13 0 },
  { base := 0x2410, count := 32, sub := 1, ty := .enum [0, 1, 2], acc := .rw, dflt := 1 },
  { base := 0x2430, count := 2, sub := 1, ty := .enum [0, 1, 2], acc := .rw, dflt := 0 },
  { base := 0x2410, count := 32, sub := 2, ty := .bool, acc := .rw, dflt := 1 },
  { base := 0x2440, sub := 1, ty := .enum [0, 1, 2], acc := .rw, cls := .staged 0x15 0 },
  { base := 0x2440, sub := 2, ty := .u64, acc := .rw, cls := .staged 0x15 0 },
  { base := 0x2440, sub := 3, ty := .u16, acc := .rw, dflt := 64, lo := 1, hi := 1024 },
  { base := 0x2440, sub := 4, ty := .time, acc := .rw, dflt := 200000, lo := 10000, hi := 10000000 },
  { base := 0x2440, sub := 5, ty := .u32 },
  { base := 0x2450, sub := 1, ty := .bits32, acc := .rw, dflt := 0x1FFE, keep := 0x1FFE }]

/-- Chapter 05. -/
def rows05 : List Row := [
  { base := 0x3000, sub := 1, ty := .u32, cls := .fixed, dflt := 0x1F3C7A95 },
  { base := 0x3000, sub := 2, ty := .u32, cls := .fixed, dflt := 0xC6E20B4D },
  { base := 0x3000, sub := 3, ty := .u32 },
  { base := 0x3000, sub := 4, ty := .u16, acc := .rw, hi := 0 },
  { base := 0x3000, sub := 5, ty := .u16, acc := .rw, hi := 0 },
  { base := 0x3001, ty := .block 16384 true, acc := .rw, cls := .staged 0x30 0 },
  { base := 0x3002, sub := 1, ty := .u32, acc := .rw, dflt := 40000000, lo := 1, hi := 40000000 },
  { base := 0x3002, sub := 2, ty := .u32, acc := .rw, dflt := 1200000, lo := 0, hi := 1200000 },
  { base := 0x3002, sub := 3, ty := .enum [0, 1, 2], acc := .rw },
  { base := 0x3002, sub := 4, ty := .time, acc := .rw, dflt := 100000, lo := 10000, hi := 10000000 },
  { base := 0x3003, sub := 1, ty := .time, acc := .rw, dflt := 1000000000, lo := 100000000, hi := 60000000000 },
  { base := 0x3003, sub := 2, ty := .u32 },
  { base := 0x3003, sub := 3, ty := .u32 },
  { base := 0x3004, sub := 1, ty := .u8, dflt := 8 },
  { base := 0x3004, sub := 2, subs := 2, ty := .u32 },
  { base := 0x3005, sub := 1, ty := .u16 }]

/-- Chapter 06. -/
def rows06 : List Row := [
  { base := 0x3100, ty := .block 2097152 true, acc := .rw, cls := .staged 0x32 0 },
  { base := 0x3110, ty := .block 12288 true, acc := .rw, cls := .staged 0x33 0 },
  { base := 0x3111, ty := .block 4096 true, acc := .rw, cls := .staged 0x33 0 },
  { base := 0x3112, sub := 1, ty := .u32, cls := .fixed, dflt := 0x7E4195D3 },
  { base := 0x3112, sub := 2, subs := 2, ty := .u32 },
  { base := 0x3112, sub := 4, ty := .u32, acc := .rw, lo := 0, hi := 262143 },
  { base := 0x3112, sub := 5, ty := .octet 64 },
  { base := 0x3120, sub := 1, ty := .u32, cls := .fixed, dflt := 0x2C85E16A },
  { base := 0x3200, ty := .block 131072 true, acc := .rw, cls := .refill },
  { base := 0x3300, sub := 1, subs := 2, ty := .time, acc := .rw, dflt := 30 * secNs, lo := secNs,
    hi := 1000000 * secNs, step := 1000000, zeroToo := true },
  { base := 0x3300, sub := 3, ty := .time, acc := .rw, dflt := 0, lo := secNs,
    hi := 1000000 * secNs, step := 1000000, zeroToo := true },
  { base := 0x3300, sub := 4, subs := 2, ty := .time, acc := .rw, dflt := 120 * secNs, lo := secNs,
    hi := 1000000 * secNs, step := 1000000, zeroToo := true },
  { base := 0x3300, sub := 6, ty := .time, acc := .rw, dflt := 60 * secNs, lo := secNs,
    hi := 1000000 * secNs, step := 1000000, zeroToo := true },
  { base := 0x3300, sub := 7, ty := .time, acc := .rw, dflt := 10 * secNs, lo := secNs,
    hi := 1000000 * secNs, step := 1000000, zeroToo := true },
  { base := 0x3300, sub := 8, ty := .time, acc := .rw, dflt := 30 * secNs, lo := secNs,
    hi := 1000000 * secNs, step := 1000000, zeroToo := true },
  { base := 0x3300, sub := 9, ty := .time, acc := .rw, dflt := 0, lo := secNs,
    hi := 1000000 * secNs, step := 1000000, zeroToo := true },
  { base := 0x3400, sub := 1, ty := .bits32, acc := .rw, keep := 0xFF },
  { base := 0x3400, sub := 2, ty := .time, acc := .rw, dflt := 400, lo := 100, hi := 10000 },
  { base := 0x3500, sub := 1, ty := .u16, acc := .rw, dflt := 60 },
  { base := 0x3500, sub := 2, ty := .u32, acc := .rw, server := .marshal },
  { base := 0x3500, sub := 3, ty := .octet 44, acc := .rw, server := .marshal },
  { base := 0x4000, count := 4096, sub := 1, ty := .octet 8, acc := .rw, cls := .staged 0x31 0 },
  { base := 0x4000, count := 4096, sub := 2, ty := .block 4096 true, acc := .rw },
  { base := 0x4000, count := 4096, sub := 3, ty := .block 131072 true, acc := .rw }]

/-- Chapter 07. -/
def rows07 : List Row := [
  { base := 0x5000, sub := 1, ty := .u32 },
  { base := 0x5000, sub := 2, ty := .u16, dflt := 4096 },
  { base := 0x5000, sub := 3, ty := .u16 },
  { base := 0x5000, sub := 4, ty := .u32, dflt := 261120 },
  { base := 0x5000, sub := 5, ty := .u32 },
  { base := 0x5000, sub := 6, ty := .u8, dflt := 16 },
  { base := 0x5000, sub := 7, ty := .u32 },
  { base := 0x5000, sub := 8, ty := .u32, acc := .rw, hi := 0 },
  { base := 0x5001, ty := .block 272 true, acc := .rw, cls := .staged 0x40 0 },
  { base := 0x5002, ty := .block 524288 true, acc := .rw, cls := .staged 0x40 0 },
  { base := 0x5003, ty := .u16, acc := .rw },
  { base := 0x5004, ty := .octet 12 },
  { base := 0x5100, sub := 1, ty := .time, acc := .rw, dflt := 2000, lo := 250, hi := 64000 },
  { base := 0x5100, sub := 2, subs := 4, ty := .u16, acc := .rw, hi := 0 },
  { base := 0x5200, ty := .bits32, acc := .rw, dflt := 0xFFFFFFFF },
  { base := 0x5300, count := 16, sub := 1, ty := .u8, acc := .rw, cls := .staged 0x41 0, dflt := 0xFF, lo := 0, hi := 33, ffToo := true },
  { base := 0x5300, count := 16, sub := 2, ty := .u8, acc := .rw, cls := .staged 0x41 0, lo := 0, hi := 7 },
  { base := 0x5300, count := 16, sub := 3, ty := .u16, acc := .rw, cls := .staged 0x41 0 },
  { base := 0x5300, count := 16, sub := 4, ty := .u32, acc := .rw, cls := .staged 0x41 0, dflt := 1 },
  { base := 0x5300, count := 16, sub := 5, ty := .u32, acc := .rw, cls := .staged 0x41 0 },
  { base := 0x5300, count := 16, sub := 6, ty := .u64, acc := .rw, cls := .staged 0x41 0, keep := 0x3FFFFFFFF }]

/-- Chapter 08. -/
def rows08 : List Row := [
  { base := 0x6000, sub := 1, ty := .u32, cls := .fixed, dflt := 0x4B9E2D07 },
  { base := 0x6001, ty := .block 1088 true, acc := .rw, cls := .staged 0x50 0 },
  { base := 0x6002, ty := .block 262144 true, acc := .rw },
  { base := 0x6003, ty := .u16, acc := .rw },
  { base := 0x6004, ty := .octet 12 },
  { base := 0x6100, count := 32, sub := 1, subs := 8, ty := .u32, acc := .rw, cls := .refill, lo := 0, hi := 400000000 },
  { base := 0x6200, count := 32, sub := 1, ty := .bool, acc := .rw, cls := .staged 0x60 1 },
  { base := 0x6200, count := 32, sub := 2, ty := .u8, acc := .rw, cls := .staged 0x60 1 },
  { base := 0x6200, count := 32, sub := 3, ty := .ptime, acc := .rw, cls := .staged 0x60 1 },
  { base := 0x6200, count := 32, sub := 4, ty := .time, acc := .rw, cls := .staged 0x60 1, dflt := 1000000 },
  { base := 0x6200, count := 32, sub := 5, ty := .block 8192 false, acc := .rw, cls := .staged 0x60 1 },
  { base := 0x6200, count := 32, sub := 6, ty := .octet 16, acc := .rw, cls := .staged 0x60 1 },
  { base := 0x6200, count := 32, sub := 7, ty := .enum [0, 1, 2], acc := .rw, cls := .staged 0x60 1 },
  { base := 0x6200, count := 32, sub := 8, ty := .bits32, acc := .rw, cls := .staged 0x60 1 },
  { base := 0x6200, count := 32, sub := 9, ty := .u8, acc := .rw, cls := .staged 0x60 1, lo := 0, hi := 3 },
  { base := 0x6200, count := 32, sub := 10, ty := .bool },
  { base := 0x6200, count := 32, sub := 11, ty := .ptime },
  { base := 0x6200, count := 32, sub := 12, ty := .time },
  { base := 0x6200, count := 32, sub := 13, ty := .ptime },
  { base := 0x6200, count := 32, sub := 14, ty := .block 8192 false },
  { base := 0x6200, count := 32, sub := 15, ty := .enum [0, 1, 2, 3] },
  { base := 0x6400, sub := 1, ty := .time, acc := .rw, dflt := 2000, lo := 500, hi := 100000 },
  { base := 0x6400, sub := 2, ty := .enum [0, 1], acc := .rw },
  { base := 0x6400, sub := 3, ty := .bits32 },
  { base := 0x6500, count := 2, sub := 1, ty := .bool, acc := .rw },
  { base := 0x6500, sub := 2, ty := .u8, acc := .rw, dflt := 0, lo := 0, hi := 127 },
  { base := 0x6501, sub := 2, ty := .u8, acc := .rw, dflt := 20, lo := 0, hi := 127 },
  { base := 0x6500, count := 2, sub := 3, ty := .u8, acc := .rw, dflt := 246 },
  { base := 0x6500, count := 2, sub := 4, ty := .u8, acc := .rw, dflt := 248 },
  { base := 0x6500, count := 2, sub := 5, ty := .bool, acc := .rw },
  { base := 0x6500, count := 2, sub := 6, ty := .i32, acc := .rw, dflt := 0xFFFFFFFD, lo := -7, hi := 1 },
  { base := 0x6500, count := 2, sub := 7, ty := .bool, server := .timekeepers },
  { base := 0x6500, count := 2, sub := 8, ty := .octet 8, server := .timekeepers },
  { base := 0x6500, count := 2, sub := 9, ty := .i64, server := .timekeepers },
  { base := 0x6500, count := 2, sub := 10, ty := .u32, server := .timekeepers },
  { base := 0x6600, count := 32, sub := 1, subs := 2, ty := .enum [0, 1, 2, 3, 4], acc := .rw, dflt := 1 },
  { base := 0x6600, count := 32, sub := 3, ty := .i32, acc := .rw, lo := -100000, hi := 100000 },
  { base := 0x6600, count := 32, sub := 4, ty := .u32, server := .timekeepers }]

/-- Chapter 09. -/
def rows09 : List Row := [
  { base := 0x7000, ty := .block 262144 true, acc := .rw, cls := .staged 0x80 0 },
  { base := 0x7001, sub := 1, ty := .time, acc := .rw, dflt := 400000000, lo := 10000000, hi := 10000000000 },
  { base := 0x7001, sub := 2, ty := .time, acc := .rw, dflt := 60000000000, lo := 1000000000, hi := 3600000000000 },
  { base := 0x7001, sub := 3, ty := .u16 },
  { base := 0x7002, sub := 1, ty := .u16, acc := .rw, lo := 0, hi := 32767 },
  { base := 0x7002, sub := 2, ty := .u16, acc := .rw },
  { base := 0x7002, sub := 3, ty := .octet 16 },
  { base := 0x7002, sub := 4, ty := .bool, acc := .cmd },
  { base := 0x7003, sub := 1, ty := .u16, acc := .rw, lo := 0, hi := 8191 },
  { base := 0x7003, sub := 2, ty := .octet 64 },
  { base := 0x7100, count := 32, sub := 1, ty := .enum [0, 1, 2, 3], acc := .rw, cls := .staged 0x81 0 },
  { base := 0x7100, count := 32, sub := 2, ty := .u8, acc := .rw, cls := .staged 0x81 0, dflt := 0xFF }]

/-- Chapters 10 and 11. -/
def rows10 : List Row := [
  { base := 0x8000, sub := 1, ty := .enum [0, 1, 2] },
  { base := 0x8000, sub := 2, ty := .enum [0, 1, 2, 3, 4, 5] },
  { base := 0x8000, sub := 3, ty := .u8 },
  { base := 0x8000, sub := 4, subs := 2, ty := .bool },
  { base := 0x8000, sub := 6, ty := .enum [0, 2] },
  { base := 0x8000, sub := 7, ty := .u32 },
  { base := 0x8001, sub := 1, subs := 8, ty := .u8, acc := .rw, lo := 0, hi := 15 },
  { base := 0x8001, sub := 9, ty := .time, acc := .rw, dflt := 100000, lo := 1000, hi := 10000000 },
  { base := 0x8002, sub := 1, subs := 2, ty := .u16, cls := .fixed },
  { base := 0x9000, sub := 1, ty := .enum [0, 1], cls := .fixed, dflt := 1 },
  { base := 0x9001, ty := .block 256 true, cls := .fixed },
  { base := 0x9100, count := 3, sub := 1, ty := .u8 },
  { base := 0x9100, count := 3, sub := 2, ty := .enum [1, 2, 3], acc := .cmd },
  { base := 0x9100, count := 3, sub := 3, ty := .time, acc := .rw, dflt := 100000000, lo := 1000000, hi := 10000000000,
    zeroToo := true },
  { base := 0x9100, count := 3, sub := 4, subs := 2, ty := .u32 },
  { base := 0x9200, sub := 1, ty := .block 2097152 false, acc := .rwHidden, cls := .halt },
  { base := 0x9200, sub := 2, ty := .u32, acc := .rwHidden, cls := .halt, keep := 0x03FF03FF },
  { base := 0x9200, sub := 3, ty := .enum [0, 1, 2, 3, 4] }]

/-- Chapters 12 and 13. -/
def rows12 : List Row := [
  { base := 0xA000, sub := 1, ty := .enum [0, 1], acc := .rw, cls := .staged 0x90 0 },
  { base := 0xA000, sub := 2, ty := .u8, acc := .rw, cls := .staged 0x90 0 },
  { base := 0xA000, sub := 3, ty := .bits32, acc := .rw, cls := .staged 0x90 0, dflt := 3 },
  { base := 0xA000, sub := 4, ty := .u16, acc := .rw, dflt := 4096, lo := 1, hi := 32767 },
  { base := 0xA000, sub := 5, ty := .time, acc := .rw, dflt := 50000, lo := 10000, hi := 1000000 },
  { base := 0xA000, sub := 6, ty := .time, acc := .rw, dflt := 1000000000, lo := 100000000, hi := 60000000000 },
  { base := 0xA000, sub := 7, ty := .bool, acc := .rw, dflt := 1 },
  { base := 0xA001, sub := 1, ty := .enum [0, 1, 2, 3, 4] },
  { base := 0xA001, sub := 2, ty := .enum [0, 1, 2, 3, 4] },
  { base := 0xA001, sub := 3, ty := .u32 },
  { base := 0xA001, sub := 4, ty := .time },
  { base := 0xA001, sub := 5, subs := 2, ty := .u32 },
  { base := 0xA001, sub := 7, ty := .u8 },
  { base := 0xA001, sub := 8, ty := .bool },
  { base := 0xB000, sub := 1, ty := .enum [0, 1, 2, 3], cls := .fixed },
  { base := 0xB000, sub := 2, ty := .u32, cls := .fixed },
  { base := 0xB000, sub := 3, ty := .enum [0, 1], cls := .fixed },
  { base := 0xB000, sub := 4, ty := .u8, dflt := 0xFE },
  { base := 0xB000, sub := 5, ty := .enum [0, 1, 2, 3] },
  { base := 0xB000, sub := 6, ty := .u8, dflt := 0xFF },
  { base := 0xB000, sub := 7, ty := .u32 },
  { base := 0xB000, sub := 8, ty := .time, acc := .rw, dflt := 1000000, lo := 100000, hi := 100000000 },
  { base := 0xB000, sub := 9, ty := .octet 128, acc := .rw },
  { base := 0xB000, sub := 10, ty := .time, acc := .rw, dflt := 1000000, lo := 100000, hi := 100000000 },
  { base := 0xB000, sub := 11, ty := .bool },
  { base := 0xB000, sub := 12, ty := .i64 },
  { base := 0xB100, ty := .block 4096 true, acc := .rw, cls := .staged 0xA0 0 },
  { base := 0xB101, ty := .block 1024 true },
  { base := 0xB102, ty := .block 1024 true },
  { base := 0xB103, sub := 1, ty := .time, acc := .rw, dflt := 10000000, lo := 1000000, hi := 10000000000 },
  { base := 0xB103, sub := 2, ty := .bool, acc := .secureW },
  { base := 0xB103, sub := 3, subs := 2, ty := .u8, acc := .secureW, lo := 1, hi := 31 },
  { base := 0xB200, sub := 1, ty := .u8, acc := .secureRw, dflt := 1, lo := 1, hi := 63 },
  { base := 0xB200, sub := 2, ty := .block 4108 false, acc := .secureRw, server := .marshal },
  { base := 0xB200, sub := 3, ty := .block 4108 false, acc := .secureR, server := .marshal },
  { base := 0xB200, sub := 4, ty := .octet 256, acc := .secureR, server := .marshal }]

/-- Chapters 14 and 15. -/
def rows14 : List Row := [
  { base := 0xC000, sub := 1, ty := .enum [0, 1, 2, 3, 4] },
  { base := 0xC000, sub := 2, ty := .enum [0, 1, 2, 4], acc := .cmd },
  { base := 0xC000, sub := 3, ty := .u16, dflt := 0xFFFF },
  { base := 0xC000, sub := 4, ty := .enum [0, 1, 2, 3, 4, 5] },
  { base := 0xC000, sub := 5, ty := .time, acc := .rw, dflt := 100000, lo := 0, hi := 10000000 },
  { base := 0xC000, sub := 6, ty := .time, acc := .rw, lo := 1000000, hi := 1000000 * secNs, zeroToo := true },
  { base := 0xC000, sub := 7, ty := .bits32, acc := .rw, dflt := 7, keep := 7 },
  { base := 0xC000, sub := 8, ty := .enum [0, 1, 2, 3] },
  { base := 0xC100, count := 4, sub := 1, ty := .enum [0, 1, 2, 3], acc := .rw, cls := .staged 0x20 1 },
  { base := 0xC100, count := 4, sub := 2, ty := .time, acc := .rw, dflt := 1000, lo := 100, hi := 1000000 },
  { base := 0xC100, count := 4, sub := 3, subs := 2, ty := .enum [0, 1, 2, 3] },
  { base := 0xC200, sub := 1, ty := .u16, acc := .rw, cls := .staged 0xC0 0, dflt := 650 },
  { base := 0xC200, sub := 2, ty := .u16, acc := .rw, cls := .staged 0xC0 0, dflt := 850 },
  { base := 0xC200, sub := 3, ty := .enum [0, 1, 2, 3], acc := .rw, cls := .staged 0xC0 0 },
  { base := 0xC200, sub := 4, ty := .u8, acc := .rw, cls := .staged 0xC0 0, dflt := 1 },
  { base := 0xC200, sub := 5, ty := .u8, acc := .rw, cls := .staged 0xC0 0, dflt := 128 },
  { base := 0xC200, sub := 6, ty := .u8, acc := .rw, cls := .staged 0xC0 0, dflt := 1 },
  { base := 0xC200, sub := 7, ty := .u8, acc := .rw, cls := .staged 0xC0 0, dflt := 63 },
  { base := 0xC200, sub := 8, ty := .u64, acc := .rw, cls := .staged 0xC0 0, dflt := 0xFFFFFFFFF },
  { base := 0xC200, sub := 9, ty := .u8, acc := .rw, cls := .staged 0xC0 0, dflt := 31 },
  { base := 0xC201, sub := 1, ty := .bits32 },
  { base := 0xC201, sub := 2, ty := .u16 },
  { base := 0xC201, sub := 3, ty := .i32 },
  { base := 0xC201, sub := 4, ty := .octet 8, cls := .fixed },
  { base := 0xC201, sub := 5, ty := .enum [0, 1, 2] },
  { base := 0xD000, sub := 1, ty := .enum [0, 1, 2, 3] },
  { base := 0xD000, sub := 2, ty := .bool, acc := .cmd },
  { base := 0xD000, sub := 3, ty := .u16 },
  { base := 0xD000, sub := 4, ty := .enum [0, 1, 2] },
  { base := 0xD000, sub := 5, subs := 2, ty := .u16 },
  { base := 0xD000, sub := 7, ty := .octet 8 },
  { base := 0xD000, sub := 8, ty := .block 192 true },
  { base := 0xD000, sub := 9, ty := .octet 12 },
  { base := 0xD010, ty := .block 6303088 false, acc := .secureW, server := .starter },
  { base := 0xD011, ty := .bool, acc := .secureW },
  { base := 0xD020, sub := 1, ty := .block 16777216 false, acc := .cmd, server := .starter },
  { base := 0xD020, sub := 2, ty := .enum [0, 1, 2, 3, 4] },
  { base := 0xD100, sub := 1, ty := .octet 32, acc := .secureOwn },
  { base := 0xD100, sub := 2, ty := .bool, acc := .secureOwn },
  { base := 0xD100, sub := 3, subs := 2, ty := .u8, acc := .secureOwn, lo := 0, hi := 64 },
  { base := 0xD100, sub := 5, ty := .octet 32, cls := .fixed },
  { base := 0xD100, sub := 6, ty := .octet 60, cls := .fixed },
  { base := 0xD100, sub := 7, ty := .u32, acc := .secureW },
  { base := 0xD200, sub := 1, ty := .octet 32, acc := .cmd },
  { base := 0xD200, sub := 2, ty := .enum [0, 1, 2, 3], acc := .secureR },
  { base := 0xD200, sub := 3, ty := .enum [0, 1, 2, 3], acc := .anchorR },
  { base := 0xD200, sub := 4, ty := .u16 },
  { base := 0xD200, sub := 5, ty := .enum [0, 1, 2, 3, 4] },
  { base := 0xD201, ty := .block 5572 false, acc := .secureR },
  { base := 0xD202, ty := .block 5572 false, acc := .anchorR }]

/-- Chapters 16 and 17. -/
def rows16 : List Row := [
  { base := 0xE000, sub := 1, ty := .u32, cls := .fixed, dflt := 0xE8000 },
  { base := 0xE100, count := 8, sub := 1, ty := .enum [0, 1, 2], acc := .rw, cls := .staged 0xE0 0 },
  { base := 0xE100, count := 8, sub := 2, ty := .u64, acc := .rw, cls := .staged 0xE0 0 },
  { base := 0xE100, count := 8, sub := 3, ty := .bits32, acc := .rw, cls := .staged 0xE0 0, dflt := 0xFF },
  { base := 0xE100, count := 8, sub := 4, ty := .u8, acc := .rw, cls := .staged 0xE0 0, dflt := 0xFF },
  { base := 0xE100, count := 8, sub := 5, ty := .u32, acc := .rw, cls := .staged 0xE0 0, dflt := 1 },
  { base := 0xE100, count := 8, sub := 6, subs := 2, ty := .u16, acc := .rw, cls := .staged 0xE0 0 },
  { base := 0xE100, count := 8, sub := 8, ty := .u32, acc := .rw, cls := .staged 0xE0 0, dflt := 1000 },
  { base := 0xE100, count := 8, sub := 9, ty := .u16, acc := .rw, cls := .staged 0xE0 0, dflt := 64 },
  { base := 0xE200, sub := 1, ty := .u16 },
  { base := 0xE200, sub := 2, ty := .octet 128, acc := .rw },
  { base := 0xF000, sub := 1, subs := 3, ty := .i32 },
  { base := 0xF000, sub := 4, ty := .i32, acc := .rw, lo := 0, hi := 0 },
  { base := 0xF000, sub := 5, ty := .i32, acc := .rw, dflt := 105000, lo := 60000, hi := 110000 },
  { base := 0xF000, sub := 6, subs := 2, ty := .bool },
  { base := 0xF100, sub := 1, subs := 2, ty := .bits32 },
  { base := 0xF100, sub := 3, subs := 2, ty := .bits32, acc := .rw, dflt := 0xFFFFFFFF },
  { base := 0xF100, sub := 5, ty := .u8 },
  { base := 0xF100, sub := 6, ty := .u8, acc := .rw, keep := 0xF },
  { base := 0xF100, sub := 7, ty := .bool, acc := .rw },
  { base := 0xF100, sub := 8, ty := .bits32, cls := .fixed, dflt := 0xFFFFFFFF },
  { base := 0xF100, sub := 9, ty := .enum [0, 1, 2], cls := .fixed, dflt := 1 },
  { base := 0xF200, sub := 1, subs := 2, ty := .u64, cls := .fixed, keep := 0xFFFFFFFFF }]

/-- Every row of the dictionary. -/
def allRows : List Row :=
  rows02 ++ rows03 ++ rows04 ++ rows05 ++ rows06 ++ rows07 ++ rows08 ++ rows09 ++ rows10 ++ rows12 ++ rows14 ++ rows16

/-- The rows that the first hexadecimal digit of an index can name, so that a lookup reads one chapter's rows. -/
def rowsOf (idx : Nat) : List Row :=
  match idx / 4096 with
  | 1 => rows02 | 2 => rows03 ++ rows04 | 3 => rows05 ++ rows06 | 4 => rows06 | 5 => rows07 | 6 => rows08 | 7 => rows09
  | 8 => rows10 | 9 => rows10 | 10 => rows12 | 11 => rows12 | 12 => rows14 | 13 => rows14 | 14 => rows16 | 15 => rows16
  | _ => []

/-- Does the row hold this index, and this sub-index? -/
def Row.hasIdx (r : Row) (idx : Nat) : Bool := r.base ≤ idx && idx < r.base + r.count
def Row.has (r : Row) (idx sub : Nat) : Bool := r.hasIdx idx && r.sub ≤ sub && sub < r.sub + r.subs

/-- The highest sub-index of an index (02 R19); 0 for an entry that is no RECORD. -/
def highestSub (idx : Nat) : Nat :=
  (rowsOf idx).foldl (fun m r => if r.hasIdx idx then max m (r.sub + r.subs - 1) else m) 0

/-- The read-only U8 at sub-index 0x00 of a RECORD (02 R19). -/
def recordRow (idx : Nat) : Row := { base := idx, ty := .u8, cls := .live, dflt := highestSub idx }

/-- Does any row define the index (18 R455)? -/
def idxExists (idx : Nat) : Bool := (rowsOf idx).any fun r => r.hasIdx idx

/-- The row of an entry: the table's own, or sub-index 0x00 of a RECORD. -/
def rowOf (idx sub : Nat) : Option Row :=
  match (rowsOf idx).find? fun r => r.has idx sub with
  | some r => some r
  | none => if sub = 0 ∧ highestSub idx ≠ 0 then some (recordRow idx) else none

/-- The commit group of a staged entry. -/
def Row.group (r : Row) (idx : Nat) : Option Nat :=
  match r.cls with
  | .staged g d => some (if d = 0 then g else g + (idx - r.base) / d)
  | _ => none

/-- The number under which an entry's value is kept. -/
def entryKey (idx sub : Nat) : Nat := idx * 256 + sub

/-- Byte `i` of the value at reset of the blocks and strings whose default is no number (Tables 3.4, 7.2, 8.1, 8.2, 9.1). -/
def dfltByte (r : Row) (idx sub i : Nat) : Nat :=
  match idx with
  | 0x2200 => if i / 8 = 0 ∨ i / 8 = 4095 then 0 else bits 0x3FFFFFFFF (8 * (i % 8)) 8
  | 0x5002 => bits (0x40000 * 2 ^ 20) (8 * (i % 8)) 8
  | 0x6001 => bits (i / 4) (8 * (i % 4)) 8
  | 0x6002 => bits 10240 (8 * (i % 4)) 8
  | 0x7000 => bits (100000 * 2 ^ 32 + 32 * 2 ^ 8) (8 * (i % 8)) 8
  | 0x8001 => if 1 ≤ sub ∧ sub ≤ 8 then sub - 1 else bits r.dflt (8 * i) 8
  | _ => bits r.dflt (8 * i) 8

/-- The length of a value at reset: a block with one exact size has it, another is empty. -/
def dfltLen (r : Row) (idx : Nat) : Nat :=
  match r.ty with
  | .block n true => if 0x4000 ≤ idx ∧ idx < 0x5000 ∧ n ≠ 4096 then 0 else n
  | .block _ false => 0
  | t => t.size

end Sys2Proof.Machine
end

