-- ==== Sys2Proof/Machine/State.lean ====
section
/-! DEFINITION. The state of the T3216 as plain data, its reset value, and the closed lists of faults and refusals.

Registers that software reads whole are bit vectors; quantities that engines count are natural numbers. A table `Tab α`
lists only what differs from the default named beside it. Instants are picoseconds since State.reset. -/
namespace Sys2Proof.Machine

/-! ### The dictionary (02) -/

/-- Commit group states (02 R31). -/
inductive GroupState where
  | clean | staged | pending
  deriving DecidableEq, Repr

/-- The principals of a command (02 R23). -/
inductive Principal where
  | hostSecure | hostNonsecure | anchor | marshal | starter
  deriving DecidableEq, Repr

/-- A PTIME: seconds and nanoseconds (02 Table 2.1). -/
structure PTime where
  sec : Nat := 0
  ns : Nat := 0
  deriving DecidableEq, Repr

/-- One commit group (02 R31, Tables 2.5, 2.6). -/
structure CommitGroup where
  state : GroupState := .clean
  holder : Option Principal := none
  commits : BitVec 16 := 0
  pdomain : Nat := 0
  ptime : PTime := {}
  deriving DecidableEq, Repr

/-- A command window of BAR2 (02 Table 2.2). -/
structure Window where
  /-- DW_LEN [31:16] and [12:0] -/
  segment : BitVec 16 := 0
  length : BitVec 13 := 0
  /-- DW_TAG -/
  regTag : BitVec 16 := 0
  busy : Bool := false
  overrun : Bool := false
  done : Bool := false
  /-- DW_STATUS.TAG -/
  tag : BitVec 16 := 0
  result : Word := 0
  rlen : BitVec 13 := 0
  /-- DW_DATA from byte 0; bytes past its end are 0 -/
  data : List Byte := []
  deriving DecidableEq, Repr

/-- The opcodes of Table 2.3. -/
inductive DictOp where
  | read | write | readStaged | commit | discard
  | blockOpen | blockSeg | blockClose | blockRead | blockCancel | blockReadStaged
  | unknown (code : Nat)
  deriving DecidableEq, Repr

/-- One command as the engine accepts it: opcode, index, sub-index or group, segment, data. -/
structure DictCommand where
  op : DictOp
  idx : Nat := 0
  sub : Nat := 0
  seg : Nat := 0
  data : List Byte := []
  deriving DecidableEq, Repr

/-- An open block transfer (02 R38). -/
structure Transfer where
  src : Source
  idx : Nat
  sub : Nat
  total : Nat
  data : List Byte := []
  nextSeg : Nat := 0
  /-- instant of the open or of the latest segment -/
  since : Nat := 0
  deriving DecidableEq, Repr

/-- A command that waits: for Marshal firmware (02 R39), or for the preparation of a bundle (03 R76). -/
structure Waiting where
  src : Source
  cmd : DictCommand
  at_ : Nat := 0
  /-- service timeout in force when the command was accepted, ns (02 Table 2.5) -/
  limit : Nat := 0
  /-- its window was reset meanwhile: its result is discarded (10 Table 10.14) -/
  lost : Bool := false
  deriving DecidableEq, Repr

structure Dict where
  /-- active values that differ from the Default column, by `entryKey` -/
  vals : Tab (List Byte) := []
  /-- staging values that differ from the active ones by a write -/
  staged : Tab (List Byte) := []
  groups : Tab CommitGroup := []
  transfers : List Transfer := []
  /-- commands handed to Marshal firmware and not yet answered, oldest first -/
  served : List Waiting := []
  secure : Window := {}
  nonsecure : Window := {}
  /-- 0x1210.01 to .03 -/
  completed : BitVec 64 := 0
  aborted : BitVec 64 := 0
  wakes : BitVec 64 := 0
  deriving DecidableEq, Repr

/-! ### Events and counters (02 R44 to R50, 16) -/

/-- One event source (02 Table 2.8, R46; 16 Table 16.6). -/
structure EventSource where
  seq : BitVec 16 := 0
  pend : Bool := false
  flags : BitVec 15 := 0
  /-- end of the hold-off opened by the latest advance -/
  holdEnd : Option Nat := none
  /-- did an event fall in that hold-off, and with which flags -/
  fell : Bool := false
  deferred : BitVec 15 := 0
  /-- EVT_TIME and EVT_CAPTURE -/
  time : BitVec 64 := 0
  capture : List Byte := []
  /-- instant of the latest event, and a clearing write: its instant with the flags that it cleared (02 R45) -/
  eventAt : Option Nat := none
  cleared : Option (Nat × BitVec 15) := none
  deriving DecidableEq, Repr

/-- What the counter snapshot is doing (02 R47, 16 R413 to R415). -/
inductive SnapPhase where
  | idle
  /-- the copy of a cut is in progress; a freeze or a plain snapshot; followed by a dump or not -/
  | copying (freeze dump : Bool)
  | dumping
  deriving DecidableEq, Repr

structure Counters where
  /-- counter values by number; a wide counter stands at its lower number -/
  vals : Tab Nat := []
  /-- the current bank and the other one, as values at their cuts -/
  bank0 : Tab Nat := []
  bank1 : Tab Nat := []
  /-- SNAP_STATUS -/
  number : BitVec 16 := 0
  overrun : Bool := false
  bank : Bool := false
  phase : SnapPhase := .idle
  /-- SNAP_TIME of the current bank, and of the cut being copied -/
  snapTime : PTime := {}
  cutTime : PTime := {}
  /-- CNT_SEL, CNT_FREEZE, CNT_DUMP -/
  sel : BitVec 20 := 0
  armed : Bool := false
  /-- the instant of a write to SOURCE while armed, and the source in force until that clock is over (16 R414); the instant of a
  command 0b11 accepted while armed (R415) -/
  retarget : Option (Nat × BitVec 10) := none
  rearmed : Option Nat := none
  /-- the base of the dump in progress -/
  dumpAt : Nat := 0
  /-- the instant at which a freeze was last taken, or disarmed by a snapshot command: until that clock is over its source's
  event still takes the freeze, and the cut follows every event of the clock (16 R414, R415) -/
  grip : Option Nat := none
  freezeDump : Bool := false
  freezeSource : BitVec 10 := 0
  dumpLo : BitVec 20 := 0
  dumpHi : Word := 0
  /-- within one command: the armed source had its event, and narrow counters reached their last value -/
  triggered : Bool := false
  saturated : List Nat := []
  deriving DecidableEq, Repr

/-- A posted write to a slow domain (02 R49). -/
structure SlowWrite where
  off : BitVec 25
  value : Word
  deriving DecidableEq, Repr

/-- Registers of the host domain that belong to no other unit (02 Tables 2.10, 2.11; 10 Table 10.7). -/
structure Access where
  /-- SLOW_BUSY with the posted write: 0 always-on, 1+s port domain s -/
  slow : Tab SlowWrite := []
  slowDropAddr : BitVec 25 := 0
  /-- DARK_ADDR [29:0] -/
  darkAddr : BitVec 30 := 0
  hostAccAddr : Word := 0
  deriving DecidableEq, Repr

/-! ### What the part sends to the outside -/

/-- How AER signals an error: as an advisory, or with the severity that the host has set (10 R269, R286). -/
inductive AerKind where
  | correctable | advisory | nonFatal | fatal
  deriving DecidableEq, Repr

/-- A record the part has sent; the model's own list of outputs (log entry 9). -/
inductive Out where
  /-- a frame, or as much of it as was sent, on a port: bytes to the end of the payload, and how its FCS ends it -/
  | frame (port : Nat) (data : List Byte) (stomped : Bool)
  | pouvex (port : Nat) (frame : List Byte)
  | pouvexRelay (port : Nat) (frame : List Byte)
  | sallar (lane : Nat) (body : List Byte)
  /-- a write to host memory -/
  | dma (addr : Nat) (data : List Byte)
  | msix (vector : Nat)
  /-- an interrupt to one core of a processor group, from an event source or a mailbox -/
  | groupIrq (group source : Nat)
  /-- a completion of a register read, and of a CXL.mem request -/
  | regData (data : List Byte)
  | memData (poison : Bool) (data : List Byte)
  | memCmp
  /-- completion of a dictionary command of an internal principal -/
  | answer (src : Source) (code : Nat) (data : List Byte)
  /-- a command handed to Marshal firmware, and one to the Starter -/
  | service (src : Source) (cmd : DictCommand)
  | coreException (core : CoreId) (addr : Nat)
  /-- AER signals an error to the host (10 R269, R286) -/
  | aer (kind : AerKind)
  | avsbus (millivolts : Nat)
  | ledChain (bits : Nat)
  | wakeN (low : Bool)
  /-- FL_RESET_N low for 10 µs (17 R442) -/
  | flashReset
  /-- COLD_RST_N rises: until this instant, while it was low, every output and bidirectional ball was high-impedance (17 R430) -/
  | coldRelease
  deriving DecidableEq, Repr

/-! ### Host attachment (10) -/

inductive HostProto where
  | down | cxl | pcie
  deriving DecidableEq, Repr

inductive RingState where
  | stopped | running | stopping | error
  deriving DecidableEq, Repr

/-- A fetched TX descriptor (10 Table 10.11). -/
structure TxDesc where
  addr : Nat
  len : Nat
  flags : Nat
  /-- bytes 11 to 31 and FLAGS [7:4] are 0 as posted -/
  clean : Bool
  raw : List Byte
  deriving DecidableEq, Repr

/-- Registers and service state of one ring (10 Table 10.10). -/
structure Ring where
  baseLo : BitVec 20 := 0
  baseHi : Word := 0
  coalCount : BitVec 8 := 0
  coalTime : BitVec 8 := 0
  sizeLog2 : BitVec 4 := 6
  hostIdx : BitVec 16 := 0
  dev : BitVec 16 := 0
  reason : BitVec 4 := 1
  state : RingState := .stopped
  /-- completions not yet reported, and when the coalescing timer of the first of them ends -/
  unreported : Nat := 0
  coalEnd : Option Nat := none
  /-- fetched descriptors of a TX ring, oldest first; a fetch after them has failed -/
  fetched : List TxDesc := []
  failed : Bool := false
  /-- posted RX descriptors are host memory, read when a copy is delivered; those already read, oldest first -/
  rxPosted : List (List Byte) := []
  deriving DecidableEq, Repr

/-- One HDM decoder (10 R271): what it is programmed with, and whether it decodes. -/
structure HdmDecoder where
  committed : Bool := false
  errorNotCommitted : Bool := false
  locked : Bool := false
  base : Nat := 0
  size : Nat := 0
  skip : Nat := 0
  ways : Nat := 1
  /-- Lock On Commit, as programmed -/
  lockOnCommit : Bool := false
  deriving DecidableEq, Repr

/-- The error registers of the host link: the AER capability of configuration space, and the CXL RAS capability in BAR4 (10
R261, R267, R286; log entry 80). -/
structure LinkErrors where
  /-- AER Uncorrectable Error Status, Severity and Correctable Error Status -/
  aerStatus : Word := 0
  aerSeverity : Word := 0x00462030
  aerCorrectable : Word := 0
  /-- RAS Uncorrectable Error Status and Correctable Error Status -/
  rasStatus : Word := 0
  rasCorrectable : Word := 0
  deriving DecidableEq, Repr

/-- A copy at the head of a class of P32 that waits for buffers, and the end of its wait (10 R279). -/
structure RxWait where
  copy : Nat
  stop : Nat
  deriving DecidableEq, Repr

/-- An MSI-X table entry as software writes it: address, data, mask bit (10 R284). -/
structure MsixEntry where
  addr : BitVec 64 := 0
  data : Word := 0
  masked : Bool := true
  deriving DecidableEq, Repr

structure HostIf where
  proto : HostProto := .down
  speed : BitVec 4 := 0
  width : BitVec 4 := 0
  cacheCap : Bool := false
  memCap : Bool := false
  cacheEn : Bool := false
  memEn : Bool := false
  busMaster : Bool := false
  resets : BitVec 32 := 0
  decoders : Tab HdmDecoder := []
  rings : Tab Ring := []
  /-- next TX ring in turn (10 R277) -/
  nextTx : Nat := 0
  /-- copies waiting for RX buffers, by class -/
  rxWait : Tab RxWait := []
  /-- instants from which the next frame of P32 may enter and leave the pipeline (01 R12) -/
  intakeFrom : Nat := 0
  deliverFrom : Nat := 0
  msix : Tab MsixEntry := []
  msixPending : Tab Bool := []
  functionMask : Bool := false
  /-- the host has enabled ASPM L1 (10 Table 10.1) -/
  aspmL1 : Bool := false
  /-- base addresses that the host has assigned to the BARs (10 R267) -/
  bar0 : BitVec 64 := 0
  bar2 : BitVec 64 := 0
  bar4 : BitVec 64 := 0
  errors : LinkErrors := {}
  /-- the other writable words of the component registers in BAR4, by offset -/
  component : Tab Word := []
  deriving DecidableEq, Repr

/-! ### The domain and Pouvex (13) -/

/-- A Pouvex message taken in, not yet acted on (log entry 15). -/
structure PouvexMsg where
  port : Fin 2
  msg : Nat
  src : Nat
  seq : Nat
  body : List Byte
  deriving DecidableEq, Repr

/-- A message being reassembled (13 R344). -/
structure Partial where
  port : Fin 2
  msg : Nat
  src : Nat
  seq : Nat
  length : Nat
  frags : Nat
  /-- bodies by fragment number -/
  got : Tab (List Byte) := []
  since : Nat := 0
  deriving DecidableEq, Repr

/-- A beacon heard: node, epoch, instant (13 R346). -/
structure Beacon where
  node : Nat
  epoch : Nat
  at_ : Nat
  deriving DecidableEq, Repr

/-- A response kept for a repeated request (13 R348). -/
structure Kept where
  src : Nat
  seq : Nat
  body : List Byte
  deriving DecidableEq, Repr

/-- An outstanding relay request to one node (13 R349). -/
structure RelayLeg where
  node : Nat
  seq : Nat
  resends : Nat
  due : Nat
  deriving DecidableEq, Repr

/-- An EVENT sent and not yet acknowledged (13 R350). -/
structure Forward where
  /-- SEQ of the status word sent -/
  seq : BitVec 16
  body : List Byte
  /-- content that replaced it meanwhile -/
  replaced : Option (List Byte) := none
  due : Nat
  deriving DecidableEq, Repr

/-- Live state of a roster entry (13 R353). -/
structure RosterState where
  presence : Nat := 0
  /-- role, sync state and pair epoch as the entry shows them: of the latest heartbeat while it was present -/
  shownRole : Nat := 0
  shownSync : Nat := 0
  shownEpoch : Nat := 0
  /-- role, sync state and pair epoch of the latest heartbeat, by which leases are granted whatever the presence -/
  role : Nat := 0
  sync : Nat := 0
  withdraw : Bool := false
  released : Bool := false
  epoch : Nat := 0
  /-- µs of domain 0, modulo 2^32 -/
  seen : Nat := 0
  /-- instant of the latest heartbeat, and of the latest ENROL sent to the node under R353 -/
  at_ : Nat := 0
  enrolled : Option Nat := none
  /-- node's active pair role as the anchor's lease timer follows it: end of the timer and the epoch granted -/
  leaseEnd : Option Nat := none
  /-- the highest epoch sent in PROMOTE to the node -/
  promised : Nat := 0
  /-- flags and Sallar lanes of the latest heartbeat -/
  flags : Nat := 0
  lanes : Nat := 0
  deriving DecidableEq, Repr

/-- A stranger table entry (13 R354). -/
structure Stranger where
  id : List Byte
  port : Fin 2
  first : Nat
  last : Nat
  at_ : Nat
  deriving DecidableEq, Repr

structure Domain where
  /-- 0xB000.06, .07 -/
  anchor : BitVec 8 := 0xFF
  anchorEpoch : BitVec 32 := 0
  /-- the highest anchor epoch seen, and own epoch while it beacons -/
  highest : BitVec 32 := 0
  beaconing : Bool := false
  /-- instant before which no PROMOTE is sent (13 R347) -/
  promoteFrom : Nat := 0
  /-- instants of the latest BEACON and ANNOUNCE sent -/
  beaconAt : Option Nat := none
  announceAt : Option Nat := none
  safeToPull : Bool := false
  /-- ENROL carried FORWARD = 1 (13 R340) -/
  member : Bool := false
  /-- 0xB000.0C, ns -/
  offset : Int := 0
  beacons : List Beacon := []
  /-- instant of the latest message from the active anchor -/
  anchorHeard : Option Nat := none
  seq : BitVec 16 := 0
  /-- last 64 SEQ values taken in, by source -/
  taken : Tab (List Nat) := []
  partials : List Partial := []
  inbox : List PouvexMsg := []
  kept : List Kept := []
  /-- requests held, the one being served first (13 R348) -/
  requests : List Kept := []
  relayRequest : List Byte := []
  relayResponse : List Byte := []
  relayResults : Tab Nat := []
  /-- the relay in progress goes to every node -/
  relayAll : Bool := false
  relay : List RelayLeg := []
  forwards : Tab Forward := []
  roster : Tab RosterState := []
  /-- the roster's commits, for BEACON -/
  rosterCommits : Nat := 0
  strangers : Tab Stranger := []
  /-- a short press awaits RELEASE: next WITHDRAW is due then (13 R355) -/
  withdrawDue : Option Nat := none
  deriving DecidableEq, Repr

/-- A Pouvex frame that waits on a marshal port, from DA to the byte before its FCS (13 Table 13.3). -/
structure WireFrame where
  /-- of the lease class (Table 13.4) -/
  lease : Bool
  /-- relayed, not sent by this device -/
  relay : Bool := false
  frame : List Byte
  deriving DecidableEq, Repr

/-- A marshal port (13 R342): the frames that wait, in the order they go, and when the one in transmission ends. -/
structure Wire where
  waiting : List WireFrame := []
  busyUntil : Nat := 0
  deriving DecidableEq, Repr

/-! ### Processors and mailboxes (11) -/

inductive ProcState where
  | stopped | starting | running | fault
  deriving DecidableEq, Repr

structure ProcGroup where
  state : ProcState := .stopped
  wdog : Bool := false
  /-- watchdog period in force, ns, and the deadline it gives -/
  period : Nat := 0
  deadline : Option Nat := none
  /-- 0x9100+g.04 and .05 -/
  expiries : BitVec 32 := 0
  faults : BitVec 32 := 0
  /-- the group's interrupt distributor stands in its 4,096 bytes of the save area (11 R299): the first of their free values -/
  distributor : Option Nat := none
  deriving DecidableEq, Repr

/-- What a core does (11 R298 to R300). -/
inductive CoreMode where
  | held | executing | wait | sleep
  deriving DecidableEq, Repr

structure Core where
  mode : CoreMode := .held
  /-- CORE_REST_MODE -/
  rest : Word := 0
  /-- the core's save slot has been written -/
  saved : Bool := false
  /-- the first of the free values that stand in the words of the slot (11 R299; log entry 87) -/
  slotAt : Nat := 0
  /-- the instant from which it executes: the end of its wake delay; the instant at which its entry into SLEEP is complete
  (14 R373) -/
  runsAt : Nat := 0
  restsAt : Nat := 0
  /-- the core's caches may hold lines: not once SLEEP has cleaned and invalidated them (11 R299) -/
  cached : Bool := false
  deriving DecidableEq, Repr

/-- A group command accepted, whose effect begins at `at_` (11 R290). -/
structure GroupCommand where
  group : Nat
  code : Nat
  at_ : Nat
  deriving DecidableEq, Repr

structure Processors where
  groups : Tab ProcGroup := []
  /-- by core number: Marshal 0-3, Timekeepers 4-7, Judges 8-15 -/
  cores : Tab Core := []
  commands : List GroupCommand := []
  /-- 0x9200.03 -/
  program : Nat := 0
  /-- the Marshal L2 has been cleaned and powered down -/
  l2Off : Bool := false
  deriving DecidableEq, Repr

/-- An outstanding mailbox message (11 R304, R308). -/
structure MbMessage where
  data : List Byte
  tag : BitVec 16
  epoch : BitVec 8
  orphan : Bool := false
  at_ : Nat
  deriving DecidableEq, Repr

structure MbAck where
  tag : BitVec 16
  code : BitVec 16
  auto : Bool
  deriving DecidableEq, Repr

/-- What a sender reset found: its instant, MB_TXBUF, the places held and the orphans among them (11 R309). -/
structure MbReset where
  at_ : Nat
  txbuf : List Byte
  places : Nat
  orphans : Nat
  deriving DecidableEq, Repr

/-- One mailbox channel (11 Table 11.11). -/
structure Channel where
  txbuf : List Byte := []
  messages : List MbMessage := []
  acks : List MbAck := []
  posts : BitVec 8 := 0
  acked : BitVec 8 := 0
  epoch : BitVec 8 := 0
  /-- the pair of this channel is crossed -/
  crossed : Bool := false
  /-- the instant of the last receiver reset, the acknowledges that it made and the messages that it purged; what the last sender
  reset found: what comes before them in the order of 11 R309 may come later in their clock -/
  purgedAt : Option (Nat × Nat) := none
  purged : List MbMessage := []
  resetAt : Option MbReset := none
  deriving DecidableEq, Repr

/-- A binding in force (11 Table 11.9). -/
structure Binding where
  valid : Bool := false
  sender : Nat := 0
  receiver : Nat := 0
  juniorRx : Bool := false
  partner : Nat := 0x7F
  deriving DecidableEq, Repr

structure Mailboxes where
  channels : Tab Channel := []
  /-- the binding in force from the end of boot until the next cold boot (11 R301); all unbound before -/
  binding : Tab Binding := []
  /-- a boot has bound the channels since the last cold reset -/
  fixed : Bool := false
  denyInfo : BitVec 12 := 0
  deriving DecidableEq, Repr

/-! ### Ports, rules and frames (03) -/

/-- Link state of a port (03 Table 3.8). -/
inductive Link where
  | down | training | up
  deriving DecidableEq, Repr

structure Port where
  link : Link := .down
  stagingHigh : BitVec 32 := 0
  /-- the stamps of the latest gPTP event message received and sent, ns of domains 0 and 1 (08 R228) -/
  gptpIn : Nat × Nat := (0, 0)
  gptpOut : Nat × Nat := (0, 0)
  /-- mean link delay that the Timekeepers measured, ns (08 Table 8.7) -/
  linkDelay : Word := 0
  deriving DecidableEq, Repr

/-- A rule row (03 R72): key, mask and action as the master image holds them, with the marks of preparation. -/
structure RuleRow where
  key : BitVec 512 := 0
  mask : BitVec 512 := 0
  action : BitVec 128 := 0
  valid : Bool := false
  /-- masked for parity -/
  masked : Bool := false
  /-- membership of version slots 0 to 3 -/
  slots : BitVec 4 := 0
  /-- written as a staged ADD, or marked as a staged KEEP (03 R76) -/
  stagedAdd : Bool := false
  stagedKeep : Bool := false
  deriving DecidableEq, Repr

inductive SlotState where
  | free | current | draining
  deriving DecidableEq, Repr

/-- A version slot (03 R73 to R78). -/
structure VersionSlot where
  state : SlotState := .free
  serial : BitVec 32 := 0
  frames : BitVec 32 := 0
  action : BitVec 128 := 0
  deriving DecidableEq, Repr

inductive Prep where
  | idle | preparing | prepared | deferred
  deriving DecidableEq, Repr

/-- A record of the bundle: row, operation, key, mask, action (03 R75). -/
structure BundleRec where
  row : Nat
  op : Nat
  key : BitVec 512
  mask : BitVec 512
  action : BitVec 128
  deriving DecidableEq, Repr

structure Rules where
  rows : Tab RuleRow := []
  slot0 : VersionSlot := { state := .current }
  slot1 : VersionSlot := {}
  slot2 : VersionSlot := {}
  slot3 : VersionSlot := {}
  prep : Prep := .idle
  /-- ADD records whose row is still in use, in bundle order -/
  deferred : List BundleRec := []
  /-- a COMMIT of group 0x10 that waits for the end of preparation -/
  waiting : Option Waiting := none
  /-- slot held for a timed commit -/
  held : Option (Fin 4) := none
  /-- RULE_STATE, RULE_BUF; the direct operation in progress -/
  busy : Bool := false
  row : BitVec 15 := 0
  buf : BitVec 1152 := 0
  deriving DecidableEq, Repr

/-! ### The forwarding database (04) -/

structure LearnReq where
  vid : Nat
  mac : Nat
  port : Nat
  slice : Nat
  /-- the instant at which it entered the queue -/
  at_ : Nat := 0
  deriving DecidableEq, Repr

structure FilterEntry where
  vid : Nat
  mac : Nat
  port : Nat
  at_ : Nat
  deriving DecidableEq, Repr

/-- A flush in order of request (04 R101, R102). -/
structure Flush where
  port : Nat
  vid : Option Nat
  withPin : Bool
  command : Bool
  deriving DecidableEq, Repr

structure ShadowDiff where
  index : Nat
  at_ : Nat
  /-- the arbiter has committed a change to the index since -/
  changed : Bool := false
  deriving DecidableEq, Repr

structure Fdb where
  /-- entries by index; an index not listed holds 0 (invalid) -/
  entries : Tab (BitVec 128) := []
  excluded : Tab Bool := []
  /-- the age counter, and the instant of its latest advance -/
  tick : BitVec 12 := 0
  tickAt : Nat := 0
  /-- learn filter of each slice, newest first -/
  filters : Tab (List FilterEntry) := []
  queue : List LearnReq := []
  queueHigh : BitVec 16 := 0
  ageOuts : List Nat := []
  flushes : List Flush := []
  walk : Nat := 0
  /-- command registers of Table 4.5 -/
  cursor : BitVec 21 := 0
  keyLo : Word := 0
  keyHi : BitVec 28 := 0
  entry : BitVec 128 := 0
  busy : Bool := false
  index : BitVec 21 := 0
  count : BitVec 6 := 0
  code : BitVec 8 := 0
  shadowIdx : BitVec 21 := 0
  nextBuf : List Byte := []
  logSeq : BitVec 32 := 0
  chunk : Nat := 0
  diffs : List ShadowDiff := []
  passes : BitVec 32 := 0
  deriving DecidableEq, Repr

/-! ### Runs of numbers, first in first out -/

/-- A list of numbers as runs of consecutive ones: first number and length, from the head. -/
abbrev Runs := List (Nat × Nat)

/-! ### Frames in flight (03, 05 to 09) -/

/-- What the parser recognised of one layer (03 R65, Table 3.3). Offsets count from the destination address; 0: absent. -/
structure Layer where
  /-- it has an Ethernet header -/
  eth : Bool := false
  etype : Nat := 0
  l3 : Nat := 0
  l3off : Nat := 0
  /-- parsing went past the IP header -/
  ip : Bool := false
  sip : Nat := 0
  dip : Nat := 0
  proto : Nat := 0
  dscp : Nat := 0
  ecn : Nat := 0
  frag : Nat := 0
  sport : Nat := 0
  dport : Nat := 0
  flags : Nat := 0
  l4off : Nat := 0
  tunId : Nat := 0
  deriving DecidableEq, Repr

/-- What the parser found in a frame (03 R65, R66; 09 R251). -/
structure Parsed where
  exc : Nat := 0
  tags : Nat := 0
  tagged : Bool := false
  pcp : Nat := 0
  dei : Nat := 0
  vid : Nat := 0
  vid2 : Nat := 0
  /-- VLAN tags seen and the offset after the last of them -/
  vlans : Nat := 0
  vlanEnd : Nat := 12
  dmac : Nat := 0
  smac : Nat := 0
  red : Nat := 0
  /-- the first R-TAG, the HSR tag: offset and number; the PRP trailer: number and LAN -/
  rtag : Option (Nat × Nat) := none
  hsr : Option (Nat × Nat) := none
  prp : Option (Nat × Nat) := none
  outer : Layer := {}
  inner : List Layer := []
  /-- length, FCS included, that the outer IP header implies -/
  implied : Option Nat := none
  deriving DecidableEq, Repr

/-- How a frame ended badly (03 R60), or was found untagged on its ring once whole (09 R251). -/
inductive BadEnd where
  | fcs | stomp | oversize | link | untagged
  deriving DecidableEq, Repr

inductive Stage where
  /-- in the staging buffer, or presented by P32 or P33 -/
  | staging
  /-- held by a classifier engine -/
  | classifying
  /-- classified, before its release in order -/
  | classified
  /-- in the flow stage -/
  | flow
  /-- judged: its copies live in the core -/
  | stored
  /-- nothing of it is left but bytes still arriving -/
  | gone
  deriving DecidableEq, Repr

/-- What reverse resolution restored (06 R157). -/
structure Resolved where
  dip : Nat
  dport : Option Nat := none
  zone : Nat
  /-- NAT_REF the record must carry, for a pool match -/
  ref : Option Nat := none
  deriving DecidableEq, Repr

/-- A flow key: head bytes 8 to 47 (05 Table 5.3). -/
abbrev FlowKey := BitVec 320

/-- Where a tail update goes: a tail, or the gathered values of a Judge-pending key. -/
inductive Loc where
  | tail (t : Nat)
  | judge (k : FlowKey)
  /-- a record deleted since: the update is discarded as late (05 R129) -/
  | late
  deriving DecidableEq, Repr

/-- A tail update held until its frame's end is known (06 R164 to R166). -/
structure Delta where
  frame : Nat
  loc : Loc
  len : Nat
  seen : Nat
  /-- the meter: does it take part, its TYPE and depths, refill, debit, time and latch -/
  meter : Bool := false
  depthC : Nat := 0
  depthE : Nat := 0
  refillC : Int := 0
  refillE : Int := 0
  debitC : Nat := 0
  debitE : Nat := 0
  meterT : Nat := 0
  latch : Bool := false
  /-- the connection-tracking transition: CT_STATE and CT_AUX after it -/
  ct : Option (Nat × Nat) := none
  /-- a later transition has settled -/
  superseded : Bool := false
  pin : Option Nat := none
  /-- a NAPT allocation this frame's admission made -/
  nat : Bool := false
  /-- it counts the frame; an update that holds an allocation alone does not (06 R154) -/
  counts : Bool := true
  deriving DecidableEq, Repr

/-- What a sample keeps of one copy (16 Table 16.3): ns after T_IN of RELEASED, HEAD, TX_START, END. -/
structure Track where
  copy : Nat
  port : Nat
  cls : Nat
  queue : Nat
  outcome : Nat := 4
  reason : Nat := 0
  released : Option Nat := none
  head : Option Nat := none
  txStart : Option Nat := none
  end_ : Option Nat := none
  deriving DecidableEq, Repr

/-- A selected sample (16 R416, R417). -/
structure Sample where
  sampler : Nat
  /-- mode and egress port of the sampler when the frame was offered (16 R419) -/
  mode : Nat := 1
  egress : Nat := 0xFF
  /-- some copy went to the sampler's egress port -/
  toPort : Bool := false
  /-- the first admitted copy, and the copy that the sampler's rule chooses -/
  first : Option Track := none
  chosen : Option Track := none
  /-- drop reason of a frame that no copy carries further -/
  reason : Nat := 0
  /-- ns after T_IN, of CLASSIFIED, FLOW, STORED -/
  classified : Option Nat := none
  flow : Option Nat := none
  stored : Option Nat := none
  /-- the frame has gone no further, while its bytes still arrive -/
  over_ : Option Nat := none
  deriving DecidableEq, Repr

/-- A frame from its first byte to the end of its last copy. -/
structure Frame where
  port : Nat
  /-- time of one byte on the ingress line, ps -/
  bytePs : Nat
  startAt : Nat
  /-- maximum frame of the port at its start -/
  limit : Nat := 10240
  /-- bytes from the destination address; the FCS included once the frame has ended -/
  bytes : List Byte
  endAt : Option Nat := none
  bad : Option BadEnd := none
  /-- discarded in staging (03 R63) -/
  stagingDrop : Bool := false
  /-- taken in by no stage: fence, hold or port discard at its start -/
  refused : Bool := false
  stage : Stage := .staging
  /-- ingress timestamp, ns of domain 0 -/
  tIn : Nat := 0
  /-- timestamp of a gPTP event message in domain 1, ns (08 R228) -/
  tIn1 : Option Nat := none
  /-- class given by a TX descriptor (10 R277) -/
  txClass : Option Nat := none
  p : Parsed := {}
  slice : Nat := 0
  iseq : BitVec 16 := 0
  slot : Fin 4 := 0
  vid : Nat := 0
  zone : Nat := 0
  cls : Nat := 0
  action : BitVec 128 := 0
  row : Option Nat := none
  /-- a reason of Table 16.4 once classification drops the frame -/
  reason : Nat := 0
  /-- redirected to P32 by the parse exception action -/
  toHost : Bool := false
  /-- number in its order domain (07 R188) -/
  oseq : BitVec 16 := 0
  /-- it has such a number: dropped by its rule, and judged for a mirror copy alone, it has none (07 R188, R199) -/
  numbered : Bool := true
  /-- FDB decision as a mask of ports, and the learn request it raised -/
  fdb : Nat := 0
  learn : Option LearnReq := none
  refresh : Option LearnReq := none
  /-- flow stage: key, reverse mark, what reverse resolution restored, and the head a cache or the CAM returned -/
  key : Option FlowKey := none
  /-- the flow stage's layer is the innermost; its read of memory is a transaction in flight (05 R122); the admission policy
  table it entered under, kept once a commit has replaced that (05 R113) -/
  inner : Bool := false
  mem : Bool := false
  policies : Option (List Byte) := none
  reverse : Bool := false
  resolved : Option Resolved := none
  head : Option (BitVec 512) := none
  /-- slot the cached head stood in -/
  headSlot : Nat := 0
  /-- the tail read with that head -/
  tailRead : BitVec 512 := 0
  /-- tail index of the record that took the frame in -/
  tail : Option Nat := none
  /-- a latency sample is due to that tail (06 R162) -/
  latency : Bool := false
  latVal : Option Nat := none
  /-- that record has been deleted; the first bit of a copy that runs ahead, ns after the timestamp -/
  tailGone : Bool := false
  aheadTx : Option Nat := none
  /-- its tail update is settled, and stands -/
  settled : Bool := false
  /-- runs ahead of its verdict, and whether the verdict has come -/
  ahead : Bool := false
  verdictIn : Bool := false
  /-- false start for VERDICT or LATE -/
  falseStart : Option Nat := none
  /-- cells of the stored frame, in chain order -/
  cells : List Nat := []
  refs : Nat := 0
  /-- copies admitted so far, any -/
  admitted : Bool := false
  /-- header changes of the verdict: translated source, DSCP, member L2 rewrite, DEI, from VERDICT 3 and 4 -/
  natSrc : Option (Nat × Option Nat) := none
  dscp : Option Nat := none
  dmac : Option Nat := none
  vidOut : Option Nat := none
  markDei : Bool := false
  /-- stream handle and its entry in force at the judgement (09 R239) -/
  handle : Option Nat := none
  entry : Nat := 0
  /-- number taken by the first copy to start; recovery, delivery and forward decisions -/
  number : Option (BitVec 16) := none
  /-- the full node table has refused it a proxied entry -/
  tableFull : Bool := false
  recovered : Option Bool := none
  delivered : Option Bool := none
  forwarded : Option Bool := none
  /-- number of the proxied node-table entry -/
  proxyNumber : Option (BitVec 16) := none
  started : Bool := false
  sample : Option Sample := none
  deriving DecidableEq, Repr

/-- A copy of a frame in the core or in a queue. -/
structure Copy where
  frame : Nat
  port : Nat
  cls : Nat
  queue : Nat
  mirror : Option Nat := none
  /-- of a mirror copy: the truncation and the tag of its session when it was judged (07 R198) -/
  trunc : Nat := 0
  tag : Nat := 0
  /-- it goes without the trailer of its port, the node table being full (09 R255) -/
  bare : Bool := false
  /-- why a copy goes to P32 (10 Table 10.13) -/
  reason : Nat := 0
  /-- transmit length L (08 R207) -/
  len : Nat
  /-- cells charged -/
  charge : Nat
  /-- released by the photo-finish, and allowed to cut through -/
  queued : Bool := false
  cut : Bool := false
  void : Bool := false
  /-- checked at the head of its queue (08 R220, 09 R245) -/
  checked : Bool := false
  /-- counted as waiting for a window (08 Table 8.8) -/
  waited : Bool := false
  /-- RX ring that 0x8001 named when a copy to P32 became a head (10 R279, R287) -/
  ring : Nat := 16
  /-- ns after its frame's T_IN at which it was released, and reached the head of its queue -/
  releasedAt : Option Nat := none
  headAt : Option Nat := none
  deriving DecidableEq, Repr

/-! ### The flow table and its units (05, 06) -/

/-- A free list with the instants at which its returned numbers were freed. -/
structure FreeList where
  runs : Runs := []
  young : List (Nat × Nat) := []
  deriving DecidableEq, Repr

/-- A line of the tail cache. -/
structure CacheLine where
  tail : Nat
  dirty : Bool := false
  deriving DecidableEq, Repr

/-- A live relocation CAM entry (05 R127, R128). -/
structure Move where
  key : FlowKey
  src : Nat
  dst : Nat
  copy : BitVec 512
  deriving DecidableEq, Repr

/-- A move of a planned chain: key, source, destination. -/
structure Hop where
  key : FlowKey
  src : Nat
  dst : Nat
  deriving DecidableEq, Repr

/-- An insert in progress (05 R127): a hardware admission, or a command. -/
structure Insert where
  key : FlowKey
  head : BitVec 512
  tail : Nat
  /-- the first tail value, for a command, and whether INIT_TAIL wrote it -/
  init : BitVec 512 := 0
  initTail : Bool := false
  command : Bool := false
  retries : Nat := 0
  /-- moves still to execute, the chain's last move first; the first of them holds a CAM entry while `live` -/
  path : List Hop := []
  live : Bool := false
  deriving DecidableEq, Repr

/-- What a Judge exception reports of a frame (11 Table 11.4). -/
structure Witness where
  frame : Nat := 0
  port : Nat
  metaData : Nat
  len : Nat
  time : Nat
  cls : Nat
  reverse : Bool
  bytes : List Byte
  deriving DecidableEq, Repr

/-- A Judge exception whose frame is still arriving: its record is written when that has ended (11 Table 11.4). -/
structure Draft where
  key : FlowKey
  policy : Nat
  reason : Nat
  pat : Nat
  first : Witness
  deriving DecidableEq, Repr

/-- An entry of the pending-admission table (05 R123 to R125). -/
structure Pat where
  key : FlowKey
  policy : Nat
  /-- policy entry in force when it was made -/
  entry : BitVec 128
  /-- hardware admission with this tail; none: Judge-pending -/
  tail : Option Nat := none
  /-- provisional tail of a hardware admission; the gathered values of a Judge-pending entry stand in PKTS, BYTES,
  FIRST_SEEN and LAST_SEEN -/
  value : BitVec 512 := 0
  /-- the frame that made the entry -/
  first : Witness
  deadline : Option Nat := none
  /-- some frame has been gathered -/
  any : Bool := false
  deriving DecidableEq, Repr

/-- The flow commands of Table 5.8 with their arguments of FLOW_CMD. -/
inductive FlowCmd where
  | search
  | next (byPolicy : Bool) (policy : Nat)
  /-- `origin`: 1 for the Judges, 2 otherwise (05 R138) -/
  | insert (initTail : Bool) (origin : Nat)
  | delete
  | deleteTail
  | retire
  | flush (withPin viaExport byPolicy : Bool) (policy : Nat)
  | deleteSlot
  | badOp
  deriving DecidableEq, Repr

/-- A flow command as the unit accepted it: the registers as they stood, which a host reset clears while the command goes on
(10 Table 10.14); what error correction finds on its reads; the tail index that a FLUSH_MATCH has come to. -/
structure FlowJob where
  cmd : FlowCmd
  cursor : Nat
  key : FlowKey
  mask : FlowKey
  head : BitVec 512
  tail : BitVec 512
  found : List FlowRead := []
  place : Nat := 0
  deriving DecidableEq, Repr

/-- What the command in progress waits for (05 R137). -/
inductive FlowWork where
  | none
  /-- the memory controllers, whose clock is gated (14 R359) -/
  | gated (j : FlowJob)
  /-- an INSERT: the pending hardware insert of its key -/
  | insert (j : FlowJob)
  /-- a FLUSH_MATCH: the rest of its walk -/
  | flush (j : FlowJob)
  deriving DecidableEq, Repr

/-- The buckets and METER_T of a record as its next frame finds them (06 R165). -/
structure Bucket where
  c : Nat
  e : Nat
  t : Nat
  deriving DecidableEq, Repr

structure Flow where
  /-- by bucket × 4 + slot -/
  heads : Tab (BitVec 512) := []
  /-- settled values -/
  tails : Tab (BitVec 512) := []
  /-- back-map words: VALID, slot, bucket -/
  backmap : Tab (BitVec 32) := []
  free : FreeList := {}
  inUse : Nat := 0
  /-- slots of the cached heads by set, and cached tails by set, the most recently used first -/
  headCache : Tab (List Nat) := []
  tailCache : Tab (List CacheLine) := []
  deltas : List Delta := []
  /-- provisional buckets of the tails that have a metered update pending (06 R165) -/
  live : Tab Bucket := []
  cam : List Move := []
  inserts : List Insert := []
  /-- by entry number, 0 to 4,095 -/
  pat : Tab Pat := []
  patHigh : BitVec 16 := 0
  /-- tokens of the admission bucket in 10^-12, and the instant of the latest refill -/
  tokens : Nat := 1200000 * 10 ^ 12
  refillAt : Nat := 0
  /-- the Judge exception queue and the expiry queue: records of 11 Tables 11.4 and 11.5, oldest first -/
  exceptions : List (List Byte) := []
  drafts : List Draft := []
  notices : List (List Byte) := []
  /-- the sweep: next index, passes done, the tail it stalled at -/
  sweep : Nat := 0
  passes : BitVec 32 := 0
  stalled : Option Nat := none
  /-- frames whose lookup has begun and that have no verdict yet, in the order in which they reached the flow stage, and the
  high-water mark of the memory transactions in flight (05 R119, R122) -/
  entered : List Nat := []
  flightHigh : BitVec 16 := 0
  threshold : BitVec 8 := 8
  /-- command registers of Table 5.10 -/
  cursor : BitVec 27 := 0
  busy : Bool := false
  index : BitVec 27 := 0
  count : BitVec 5 := 0
  code : BitVec 8 := 0
  hdmLine : BitVec 29 := 0
  key : FlowKey := 0
  mask : FlowKey := 0
  headReg : BitVec 512 := 0
  tailReg : BitVec 512 := 0
  nextBuf : List Byte := []
  work : FlowWork := .none
  /-- reads of the host's view that wait for the memory clock (14 R359): address and what error correction finds, oldest first
  -/
  hdmWaits : List (Nat × Ecc) := []
  /-- NAPT (06 R151 to R156): bindings, inside ports, owner entries, block bitmaps and rotating cursors by pool -/
  bindings : Tab (BitVec 512) := []
  ports : Tab (BitVec 16) := []
  owners : Tab Nat := []
  blocks : Tab (BitVec 256) := []
  cursors : Tab Nat := []
  /-- records whose buckets start full at their next metered frame (06 R158; 12 R328), by tail -/
  meterNew : Tab Bool := []
  deriving DecidableEq, Repr

/-! ### The buffer and the core (07) -/

/-- The charges of a queue (07 R180). -/
structure Charge where
  q : Nat := 0
  z : Nat := 0
  y : Nat := 0
  deriving DecidableEq, Repr

/-- An announcement to an egress slice (07 R189). -/
structure Announce where
  dom : Nat
  first : BitVec 16
  last : BitVec 16
  /-- descriptors of an ARRIVE; none: VOID -/
  copies : Option (List Nat)
  at_ : Nat
  /-- gap timeout in force when it arrived, ps (0x5100.01) -/
  gap : Nat := 0
  deriving DecidableEq, Repr

/-- The photo-finish of one egress slice (07 R190). -/
structure Finish where
  fifo : List Announce := []
  expected : Tab (BitVec 16) := []
  /-- announcements that wait for a missing number, in arrival order -/
  waiting : List Announce := []
  high : BitVec 16 := 0
  deriving DecidableEq, Repr

structure Buffer where
  /-- occupancy bitmaps of tiles that hold data -/
  tiles : Tab (BitVec 64) := []
  free : Runs := [(0, 4096)]
  partial_ : List Nat := []
  /-- a link word could not be read: nothing is drawn from the free list until it is rebuilt, and the tile of that
  word (07 R178) -/
  rebuilding : Bool := false
  rebuildTile : Nat := 0
  hands : Tab (List Nat) := []
  /-- size S of the shared pool -/
  size : Nat := 261120
  cells : Nat := 0
  cellsHigh : BitVec 32 := 0
  charges : Tab Charge := []
  portZ : Tab Nat := []
  u : Nat := 0
  k : Nat := 0
  descriptors : Nat := 0
  a : BitVec 8 := 16
  thresholdRefused : Bool := false
  /-- a reserve shortfall, and U − S at the commit (07 R183) -/
  shortfall : Bool := false
  shortBy : BitVec 32 := 0
  frames : Tab Frame := []
  copies : Tab Copy := []
  nextFrame : Nat := 0
  nextCopy : Nat := 0
  /-- next ingress number and next number to release, by slice -/
  iseq : Tab (BitVec 16) := []
  release : Tab (BitVec 16) := []
  /-- next number of each order domain, by port × 8 + class -/
  oseq : Tab (BitVec 16) := []
  finish : Tab Finish := []
  /-- frames offered to each mirror session -/
  offered : Tab Nat := []
  deriving DecidableEq, Repr

/-! ### Egress (08) -/

structure Queue where
  fifo : List Nat := []
  deficit : Int := 0
  deriving DecidableEq, Repr

/-- A transmission in progress, or a preempted one. -/
structure Tx where
  copy : Nat
  startAt : Nat
  /-- time of one byte, ps -/
  bytePs : Nat
  /-- bytes of the copy sent by earlier fragments -/
  sent : Nat := 0
  preemptable : Bool := false
  /-- ns after the frame's T_IN at which its first bit was sent -/
  after : Nat := 0
  deriving DecidableEq, Repr

/-- A credit-based shaper (08 R211); credit in 10^-9 bit. -/
structure Shaper where
  slope : Nat := 0
  credit : Int := 0
  eligible : Bool := false
  deriving DecidableEq, Repr

/-- A gate set: what a commit of group 0x60+p carries (08 R213 to R216). -/
structure GateSet where
  enabled : Bool := false
  domain : Nat := 0
  /-- start of a cycle, ns of its domain -/
  base : Nat := 0
  cycle : Nat := 0
  list : List Byte := []
  sizes : List Byte := []
  preempt : Nat := 0
  classes : Nat := 0
  fragment : Nat := 0
  deriving DecidableEq, Repr

inductive Preemption where
  | inactive | verifying | active | failed
  deriving DecidableEq, Repr

/-- The egress side of one port. -/
structure Egress where
  tx : Option Tx := none
  suspended : Option Tx := none
  /-- instant at which the line is free again -/
  freeAt : Nat := 0
  /-- class of a fragment that a hold cut short, and the instant at which its last byte leaves (08 R224) -/
  fragment : Option (Nat × Nat) := none
  /-- the port left up, and its queues are not yet flushed (08 R225) -/
  flushing : Bool := false
  shapers : Tab Shaper := []
  shaperAt : Nat := 0
  oper : GateSet := {}
  /-- the pending set with its change time, ns of its domain -/
  waiting : Option (GateSet × Nat) := none
  /-- a timed commit accepted, with the change time fixed then; it is loaded at its PTIME (08 R216) -/
  timed : Option (GateSet × Nat) := none
  /-- gates in force since the latest entry change -/
  gates : BitVec 8 := 0xFF
  /-- classes whose preemption hold has started -/
  holds : BitVec 8 := 0
  preemption : Preemption := .inactive
  deriving DecidableEq, Repr

/-! ### Seamless redundancy (09) -/

/-- A vector history (09 R246). -/
structure History where
  takeAny : Bool := true
  last : BitVec 16 := 0
  hist : BitVec 64 := 0
  /-- instant of the latest restart of its timer, or update -/
  at_ : Option Nat := none
  /-- its reset timer has expired since (09 R247) -/
  expired : Bool := false
  deriving DecidableEq, Repr

/-- A node-table entry (09 R255, Table 9.5). -/
structure Node where
  mac : Nat
  remote : Bool := false
  proxied : Bool := false
  txSeq : BitVec 16 := 0
  delivery : History := {}
  fwdA : History := {}
  fwdB : History := {}
  lanA : Bool := false
  lanB : Bool := false
  /-- µs of domain 0 modulo 2^32, and the instant -/
  seen : Nat := 0
  at_ : Nat := 0
  deriving DecidableEq, Repr

structure Redundancy where
  /-- what every takeover has added to the generators listed by their difference from it (12 R329) -/
  genBase : BitVec 16 := 0
  generators : Tab (BitVec 16) := []
  recovery : Tab History := []
  nodes : Tab Node := []
  deriving DecidableEq, Repr

/-! ### The split log (16 R416 to R418) -/

structure Sampler where
  offered : Nat := 0
  /-- tokens, filled at the rate, up to the burst; the part of one in 10^-12, and the instant of the latest refill -/
  tokens : Nat := 0
  part : Nat := 0
  refillAt : Nat := 0
  deriving DecidableEq, Repr

structure SplitLog where
  samplers : Tab Sampler := []
  seq : BitVec 32 := 0
  /-- completed samples, oldest first -/
  log : List (List Byte) := []
  deriving DecidableEq, Repr

/-! ### Active and standby pairs (12) -/

inductive Role where
  | detached | active | standby | fenced | held
  deriving DecidableEq, Repr

inductive Sync where
  | none | clearing | bulk | inSync | needed
  deriving DecidableEq, Repr

/-- A mirror record: sequence number, type, body (12 Table 12.3). -/
structure MirrorRec where
  seq : BitVec 32
  ty : Nat
  body : List Byte
  /-- it belongs to a bulk copy: frames of KIND 0x02 -/
  bulk : Bool := false
  deriving DecidableEq, Repr

structure Pairing where
  role : Role := .detached
  sync : Sync := .none
  epoch : BitVec 32 := 0
  /-- end of the active's own lease timer -/
  leaseEnd : Option Nat := none
  /-- 16-bit heartbeat count and the instants at which the latest heartbeats were sent, by count -/
  hbCount : BitVec 16 := 0
  hbSent : Tab Nat := []
  drainEnd : Option Nat := none
  drainDone : Bool := false
  /-- per lane: instant of the latest good frame received, and of the latest frame sent -/
  laneRx : Tab Nat := []
  laneTx : Tab Nat := []
  laneUp : BitVec 2 := 0
  sallarHb : BitVec 16 := 0
  /-- replay queue, oldest first, with its next sequence number, of which the first is 1 (log entry 63); next record expected
  from the peer; the number after the latest record that the peer is known to have sent -/
  replay : List MirrorRec := []
  nextSeq : BitVec 32 := 1
  expected : BitVec 32 := 0
  peerNext : BitVec 32 := 0
  /-- standby: it follows its active's sequence, so that `expected` stands; since its ASSIGN a frame has gone out that says it
  does not (log entry 63); the tails drawn by a record and not yet placed or returned -/
  follows : Bool := false
  asked : Bool := false
  drawn : List Nat := []
  /-- the lane whose turn it is to carry the next records: SL1 -/
  laneTurn : Bool := false
  /-- records received while a flow command is in progress, applied after it (05 R137) -/
  accepted : List MirrorRec := []
  ackAt : Nat := 0
  loss : Bool := false
  /-- FLAGS of the peer's latest Sallar frame and its instant -/
  peerFlags : Nat := 0
  peerAt : Option Nat := none
  /-- the newest EPOCH seen in a frame of the peer -/
  peerEpoch : BitVec 32 := 0
  peerDrained : Bool := false
  /-- active: instant of the latest frame that confirms the loss of the anchor; standby: of the latest it sent -/
  confirmRx : Option Nat := none
  confirmTx : Option Nat := none
  anchorLost : Bool := false
  bulkCursor : BitVec 32 := 0
  /-- a bulk copy has been begun for the partner, and has not all been sent -/
  bulkSent : Bool := false
  bulkOn : Bool := false
  digestPos : Nat := 0
  /-- instants of the latest generator batch, and of the start of the digest pass -/
  batchAt : Nat := 0
  digestAt : Nat := 0
  /-- the bulk copy has not begun: records are counted off, not applied -/
  adopt : Bool := false
  /-- instant of the latest HEARTBEAT, by marshal port -/
  hbAt : Tab Nat := []
  /-- within one command: records were lost -/
  lost : Bool := false
  /-- handles and senders whose values changed since the latest mirror batch -/
  genDirty : List Nat := []
  /-- a takeover changed every generator -/
  genAll : Bool := false
  nodeDirty : List Nat := []
  lastApplied : BitVec 32 := 0
  deriving DecidableEq, Repr

/-! ### Time (08 R227) -/

/-- A domain clock: its value at an instant, in 2^-32 ns, and its rate in steps of 2^-44 from that of the reference. -/
structure Clock where
  value : Nat := 0
  at_ : Nat := 0
  rate : Int := 0
  /-- gPTP status of the instance: synchronised, grandmaster, offset, steps (08 Table 8.7) -/
  synced : Bool := false
  grandmaster : List Byte := [0, 0, 0, 0, 0, 0, 0, 0]
  offset : Int := 0
  steps : BitVec 32 := 0
  deriving DecidableEq, Repr

/-! ### Power (14) -/

inductive DevState where
  | active | quiet | hold | pairStandby | dormant
  deriving DecidableEq, Repr

/-- Slice power states (14 R370). -/
inductive SliceState where
  | run | nap | doze | off
  deriving DecidableEq, Repr

structure Slice where
  state : SliceState := .off
  /-- instant at which a wake in progress reaches RUN -/
  wakeAt : Option Nat := none
  /-- idle without a break since (14 R370) -/
  idleSince : Option Nat := none
  /-- ps spent in NAP, DOZE and OFF up to `since` -/
  nap : Nat := 0
  doze : Nat := 0
  off : Nat := 0
  since : Nat := 0
  /-- pipeline step (14 Table 14.10) -/
  step : BitVec 2 := 0
  /-- the step called for, while the voltage is raised for it (14 R379) -/
  goal : BitVec 2 := 0
  /-- highest fill of a staging buffer of its ports in the interval of the frequency loop -/
  peak : Nat := 0
  /-- in a hold span (08 R230) -/
  held : Bool := false
  deriving DecidableEq, Repr

structure Power where
  state : DevState := .active
  /-- transition in progress, and whether the pairing logic requested it; the queued request -/
  target : Option (DevState × Bool) := none
  queued : Option (DevState × Bool) := none
  outcome : Nat := 0
  /-- end of the drain of an entry into HOLD or PAIR-STANDBY, and instant at which the transition is complete -/
  drainEnd : Option Nat := none
  doneAt : Option Nat := none
  wakeSource : Nat := 0
  slices : Tab Slice := []
  /-- the wake plan (08 R231) -/
  spans : List HoldSpan := []
  planEnd : Nat := 0
  planLate : Bool := false
  /-- pending gate lists that the plan takes in, with port and change time -/
  planned : List (Nat × GateSet × Nat) := []
  /-- lists that became operational before a plan covered their change time -/
  uncovered : List (Nat × GateSet × Nat) := []
  /-- voltage loop (14 R378 to R380) -/
  millivolts : Nat := 0
  margin : Int := 0
  /-- what the monitors have trimmed the fused minimum by, mV -/
  trim : Int := 0
  above : Nat := 0
  avs : Nat := 0
  /-- a Voltage command in progress: value, retries made, instant sent -/
  writing : Option (Nat × Nat × Nat) := none
  shortfall : Bool := false
  held : BitVec 5 := 0
  /-- clocks that have lost lock -/
  unlocked : List Pll := []
  /-- instant at which the pipeline PLL lost lock -/
  gatedAt : Nat := 0
  /-- CTLE codes by lane -/
  codes : Tab Nat := []
  /-- FFE and DFE settings by lane (14 R381) -/
  taps : Tab (Nat × Nat) := []
  /-- heads replaced in the interval of the placement loop -/
  replaced : Nat := 0
  /-- the entry into DORMANT waits for the minimum voltage (14 R363) -/
  sinking : Bool := false
  /-- the dormant wake timer of the entry begun, ns, and its end; instant of the entry into DORMANT -/
  timer : Nat := 0
  timerEnd : Option Nat := none
  dormantAt : Nat := 0
  deriving DecidableEq, Repr

/-! ### The whole state -/

/-- What survives every reset and power-off: fuses and the boot flash (15 R389, R391). -/
structure Nv where
  lifecycle : BitVec 4 := 0b0011
  ownerHash : List Byte := []
  ownerSet : Bool := false
  coSign : Bool := false
  /-- security versions, and fuses of their fields tried (15 R390) -/
  galelekSv : Nat := 0
  galelekAt : Nat := 0
  ownerSv : Nat := 0
  ownerAt : Nat := 0
  /-- leaf fuses consumed -/
  leaf : Nat := 0
  /-- an uncorrectable word left the owner slot unusable until a cold boot -/
  ownerBad : Bool := false
  /-- image sets A and B -/
  flashA : List Byte := []
  flashB : List Byte := []
  deriving DecidableEq, Repr

/-- 0xD200.05. -/
inductive Identity where
  | generating | ready | deferred | exhausted | unavailable
  deriving DecidableEq, Repr

/-- What a warm reset keeps (15 R388, Table 15.1; 17 R437, R448). -/
structure Ao where
  warmResets : BitVec 16 := 0
  node : BitVec 8 := 0xFE
  /-- the lower identity tree: its state, the next lower leaf, the instant of the latest renewal or cold boot -/
  identity : Identity := .generating
  lowerLeaf : Nat := 0
  renewedAt : Nat := 0
  /-- the top leaf of this cold boot is not yet blown (15 R402) -/
  leafDue : Bool := true
  /-- the identity secret cannot be read; the leaf counter is full -/
  secretBad : Bool := false
  /-- GENERATION of the boot set last used -/
  generation : Option Nat := none
  /-- TRIP_N is latched, LED_OE_N is low, PERST_N is high -/
  trip : Bool := false
  ledOn : Bool := false
  perstHigh : Bool := false
  /-- COLD_RST_N is low (17 R430) -/
  coldLow : Bool := false
  /-- instant of the release of cold reset, from which the free-running time counts (04 R93), ps -/
  coldAt : Nat := 0
  deriving DecidableEq, Repr

/-! ### Boot and attestation (15) -/

inductive BootState where
  | booting | complete | recovery | failed
  deriving DecidableEq, Repr

/-- One report slot (15 R404): the report, the nonce queued, and the one being answered with its RESULT. -/
structure ReportSlot where
  report : List Byte := []
  /-- a request that waits: its nonce, and the RESULT that the identity state of its instant gives it (R405) -/
  queued : Option (List Byte × Nat) := none
  generating : Option (List Byte × Nat) := none
  deriving DecidableEq, Repr

/-- How the boot flash is read (17 R442): not yet since the reset; in 1S-1S-1S mode; in 8D-8D-8D mode, once its parameter table
has been read. -/
inductive FlashBus where
  | unread | single | octal
  deriving DecidableEq, Repr

structure Boot where
  state : BootState := .booting
  /-- the step of R395 in progress -/
  step : Nat := 1
  cold : Bool := true
  /-- the part was decommissioned before this reset: no image verifies (15 R401) -/
  retired : Bool := false
  reason : BitVec 16 := 0
  /-- 0xD000.04, and the flash set the images come from: 0 A, 1 B -/
  set : BitVec 8 := 0
  flashSet : Option Nat := none
  /-- the other set has been tried -/
  tried : Bool := false
  /-- the flash did not respond in this boot -/
  silent : Bool := false
  flashBus : FlashBus := .unread
  /-- some image was absent or refused -/
  imageBad : Bool := false
  /-- 0xD000.07 -/
  states : List Byte := [0, 0, 0, 0, 0, 0, 0, 0]
  /-- digests, VERSION and SECVER of the images running, by place in 0xD000.08 -/
  digests : Tab (List Byte) := []
  versions : Tab Nat := []
  secvers : Tab Nat := []
  /-- images of this boot by TYPE, and those supplied in RECOVERY -/
  images : Tab (List Byte) := []
  recovery : Tab (List Byte) := []
  /-- 0xD000.09 -/
  skipped : BitVec 32 := 0
  firstSkip : BitVec 32 := 0
  skipCode : BitVec 32 := 0
  /-- 0xD020.02, and the set being programmed -/
  update : BitVec 8 := 0
  updating : Option (List Byte) := none
  /-- instant at which a requested warm reset begins -/
  resetAt : Option Nat := none
  hostSlot : ReportSlot := {}
  anchorSlot : ReportSlot := {}
  /-- signing tokens -/
  tokens : Nat := 64
  deriving DecidableEq, Repr

/-! ### The front panel and the sensors (17) -/

structure Panel where
  /-- 0xF100.01, .02, .05 -/
  present : BitVec 32 := 0
  interrupts : BitVec 32 := 0
  inputs : BitVec 8 := 0
  /-- cages whose MODPRS_N differs from what is accepted, and since when -/
  changed : Tab Nat := []
  /-- end of identify -/
  identifyEnd : Option Nat := none
  /-- m°C -/
  die : Int := 0
  stack0 : Int := 0
  stack1 : Int := 0
  dieHigh : Int := 0
  therm : Bool := false
  /-- stacks that refresh at twice the normal rate -/
  refresh0 : Bool := false
  refresh1 : Bool := false
  deriving DecidableEq, Repr

/-- The state of the machine. -/
structure State where
  nv : Nv := {}
  ao : Ao := {}
  /-- instant of the latest command, ps since State.reset -/
  now : Nat := 0
  /-- free values drawn (log entry 8) -/
  draw : Nat := 0
  /-- what the part has sent, newest first (log entry 9) -/
  out : List Out := []
  dict : Dict := {}
  evt : Tab EventSource := []
  /-- EVT_ROUTE by source -/
  route : Tab Word := []
  cnt : Counters := {}
  acc : Access := {}
  host : HostIf := {}
  dom : Domain := {}
  /-- the marshal ports, by number (13 R342) -/
  wires : Tab Wire := []
  proc : Processors := {}
  mbox : Mailboxes := {}
  ports : Tab Port := []
  rules : Rules := {}
  fdb : Fdb := {}
  flow : Flow := {}
  buf : Buffer := {}
  egress : Tab Egress := []
  queues : Tab Queue := []
  /-- the DRR round of each class of each port, by port × 8 + class -/
  rounds : Tab (List Nat) := []
  red : Redundancy := {}
  split : SplitLog := {}
  /-- TIME_D0 and TIME_D1 registers (08 Table 8.5), ns -/
  captured0 : Nat := 0
  captured1 : Nat := 0
  pair : Pairing := {}
  pow : Power := {}
  boot : Boot := {}
  panel : Panel := {}
  clock0 : Clock := {}
  clock1 : Clock := {}
  /-- commands waiting, first in first out -/
  pending : List Instr := []
  deriving DecidableEq, Repr

/-- The machine at the release of cold reset, before boot runs (log entries 4 and 5): nothing listed, every register at
its reset value, which the defaults above state. -/
def State.reset : State := {}

/-- Why a command stops with a fault. No command does: the part completes every access and reports what it refuses
(10 R269). The list is closed and has one name, which nothing raises. -/
inductive Fault where
  /-- a state no command reaches; raised by nothing; safe, since it would only stop a run -/
  | unreachable
  deriving DecidableEq, Repr

/-- Why a command has no meaning. -/
inductive Refusal where
  /-- the command has no meaning yet; raised by its arm of `exec` alone; safe, since a run stops there -/
  | notModelled (mnemonic : String)
  deriving DecidableEq, Repr

/-- What a step answers. -/
abbrev Result := Host.Outcome State Fault Refusal

end Sys2Proof.Machine
end

