-- ==== Sys2Proof/Machine/Ops.lean ====
section
/-! DEFINITION. The operations that every family shares: active values of the dictionary, time, outputs, free values,
counters, events with their interrupts, log rings, Pouvex messages and mirror records. -/
namespace Sys2Proof.Machine

/-! ### Values of the dictionary (02 R27, R35) -/

/-- How one byte of an entry is read: index, sub-index, byte. -/
abbrev Reader := Nat → Nat → Nat → Nat

/-- A little-endian field of `n` bytes from byte `off` of an entry. -/
def rdField (r : Reader) (idx sub off : Nat) : Nat → Nat
  | 0 => 0
  | n + 1 => r idx sub off + 256 * rdField r idx sub (off + 1) n

/-- The byte a table of values gives, the Default column where it lists nothing. -/
def valueByte (t : Tab (List Byte)) (idx sub i : Nat) : Nat :=
  match tfind t (entryKey idx sub) with
  | some bs => byteAt bs i
  | none =>
    match rowOf idx sub with
    | some r => dfltByte r idx sub i
    | none => 0

/-- The active values. -/
def State.active (s : State) : Reader := valueByte s.dict.vals

/-- The staging values: what was written to the staging copy, else the active value (02 R31). -/
def State.staging (s : State) : Reader := fun idx sub i =>
  match tfind s.dict.staged (entryKey idx sub) with
  | some bs => byteAt bs i
  | none => s.active idx sub i

/-- The active value of an entry as a number of its type's size. -/
def State.num (s : State) (idx sub : Nat) : Nat :=
  match rowOf idx sub with
  | some r => rdField s.active idx sub 0 r.ty.size
  | none => 0

/-- A field of an active block. -/
def State.blk (s : State) (idx sub off n : Nat) : Nat := rdField s.active idx sub off n

/-- The length of an active or staging value. -/
def valueLen (t : Tab (List Byte)) (idx sub : Nat) : Nat :=
  match tfind t (entryKey idx sub) with
  | some bs => bs.length
  | none => match rowOf idx sub with
    | some r => dfltLen r idx
    | none => 0

/-- All bytes a reader gives for an entry of `n` bytes. -/
def readAll (r : Reader) (idx sub n : Nat) : List Byte := (List.range n).map fun i => byte (r idx sub i)

/-- An active value set without any check. -/
def State.setVal (s : State) (idx sub : Nat) (bs : List Byte) : State :=
  { s with dict.vals := tput s.dict.vals (entryKey idx sub) bs }

/-! ### Time (08 R227; 04 R93) -/

/-- 1 µs, 1 ns in ps. -/
def usPs : Nat := 1000000
def nsPs : Nat := 1000

/-- The state at a later instant; the queue gives instants in order, and an earlier one moves nothing back. -/
def State.advance (s : State) (t : Nat) : State := { s with now := max s.now t }

/-- What a clock shows at an instant, in 2^-32 ns (R227): the time since it was set runs at its rate. -/
def Clock.at (c : Clock) (now : Nat) : Nat :=
  c.value + ((now - c.at_ : Nat) * ((2 ^ 44 : Int) + c.rate).toNat * 2 ^ 32) / (1000 * 2 ^ 44)

def State.clock (s : State) (d : Nat) : Clock := if d = 0 then s.clock0 else s.clock1
def State.setClock (s : State) (d : Nat) (c : Clock) : State :=
  if d = 0 then { s with clock0 := c } else { s with clock1 := c }

/-- What a domain clock shows now; in DORMANT an always-on count of the reference, without its rate, carries it (14 R363). -/
def State.clockNow (s : State) (d : Nat) : Nat :=
  (if s.pow.state == .dormant then { s.clock d with rate := 0 } else s.clock d).at s.now

/-- Whole nanoseconds of a domain clock. -/
def State.domainNs (s : State) (d : Nat) : Nat := s.clockNow d / 2 ^ 32
/-- The time of domain 0, by which events and tails are dated. -/
def State.ns0 (s : State) : Nat := s.domainNs 0
/-- Microseconds of domain 0. -/
def State.us0 (s : State) : Nat := s.ns0 / 1000

def ptimeOfNs (n : Nat) : PTime := { sec := n / secNs % 2 ^ 48, ns := n % secNs }
def PTime.toNs (p : PTime) : Nat := p.sec * secNs + p.ns
/-- PTIME as 10 bytes, seconds first (02 Table 2.1). -/
def PTime.bytes (p : PTime) : List Byte := leBytes 6 p.sec ++ leBytes 4 p.ns
def ptimeOf (v : Nat) : PTime := { sec := v % 2 ^ 48, ns := v / 2 ^ 48 }

/-- The ps since `t`. -/
def State.since (s : State) (t : Nat) : Nat := s.now - t

/-! ### Outputs and free values -/

def State.emit (s : State) (o : Out) : State := { s with out := o :: s.out }
def State.emits (s : State) (os : List Out) : State := { s with out := os.reverse ++ s.out }

/-- The next free value, and the state that has drawn it (log entry 8). -/
def State.free (s : State) : Nat × State := (Config.freeNat s.draw, { s with draw := s.draw + 1 })

/-- `n` bytes that the model does not fix. -/
def State.freeBytes (s : State) (n : Nat) : List Byte × State :=
  let (v, s) := s.free
  (leBytes n v, s)

/-! ### Counters (16 R409 to R412) -/

/-- The last value of a narrow counter. -/
def narrowMax : Nat := 2 ^ 48 - 1

/-- `k` more on a narrow counter, which stops at its last value and reports reaching it once (R411). -/
def State.count (s : State) (n : Nat) (k : Nat := 1) : State :=
  let v := tget s.cnt.vals n 0
  let w := min (v + k) narrowMax
  { s with cnt := { s.cnt with
      vals := tset 0 s.cnt.vals n w
      saturated := if v < narrowMax ∧ w = narrowMax then n :: s.cnt.saturated else s.cnt.saturated } }

/-- One less on a narrow counter: what was counted in this clock was another thing (11 R309). -/
def State.uncount (s : State) (n : Nat) : State := { s with cnt.vals := tset 0 s.cnt.vals n (tget s.cnt.vals n 0 - 1) }

/-- `k` more on a wide counter, whose two numbers hold its low and high 48 bits (R411). -/
def State.countW (s : State) (n : Nat) (k : Nat := 1) : State :=
  { s with cnt.vals := tset 0 s.cnt.vals n ((tget s.cnt.vals n 0 + k) % 2 ^ 96) }

/-- What one counter number reads in a table of values: a wide counter's high half stands one above it. -/
def counterRead (t : Tab Nat) (n : Nat) : Nat :=
  match tfind t n with
  | some v => v % 2 ^ 48
  | none => if n = 0 then 0 else tget t (n - 1) 0 / 2 ^ 48

/-! ### Device identity and roles used by every family -/

/-- Domain roles (13 Table 13.1). -/
def State.domainRole (s : State) : Nat := s.num 0xB000 1
def State.isWorker (s : State) : Bool := s.domainRole == 1
def State.isAnchorRole (s : State) : Bool := s.domainRole == 2 || s.domainRole == 3

/-- The device's own node number (13 R339, Table 13.1). -/
def State.node (s : State) : Nat :=
  match s.domainRole with
  | 1 => s.ao.node.toNat
  | 2 => 0
  | 3 => 62
  | _ => 0xFE

def State.group (s : State) (g : Nat) : ProcGroup := tget s.proc.groups g {}
def State.setGroup (s : State) (g : Nat) (p : ProcGroup) : State :=
  { s with proc.groups := tset {} s.proc.groups g p }
def State.groupRuns (s : State) (g : Nat) : Bool := (s.group g).state == .running
def marshalGroup : Nat := 0
def timekeepersGroup : Nat := 1
def judgesGroup : Nat := 2

/-- Has a clock its lock (14 R359)? -/
def State.locked (s : State) (p : Pll) : Bool := !s.pow.unlocked.contains p
/-- The PLL behind the cores of a group (14 Table 14.1). -/
def groupPll (g : Nat) : Pll := if g = 2 then .judge else .marshal
/-- Does a group run, with its clock (14 R359)? -/
def State.groupActs (s : State) (g : Nat) : Bool := s.groupRuns g && s.locked (groupPll g)

def State.bootDone (s : State) : Bool := s.num 0x1103 0 == 1
def State.pairingOn (s : State) : Bool := s.num 0xA000 1 == 1

/-! ### MSI-X (10 R284) -/

/-- Raise a vector: one message, or the pending bit where the vector or the function is masked. No message is sent in
DORMANT (10 R283), where the raise waits as a pending bit. -/
def State.msix (s : State) (dormant : Bool) (v : Nat) : State :=
  if (tget s.host.msix v {}).masked || s.host.functionMask || dormant then
    { s with host.msixPending := tset false s.host.msixPending v true }
  else s.emit (.msix v)

/-! ### Pouvex messages (13 R342, R345, Table 13.3) -/

/-- Frames a body of `n` bytes takes. -/
def pouvexFrames (n : Nat) : Nat := max 1 ((n + 1023) / 1024)

/-- Is a message of the lease class (Table 13.4): HEARTBEAT, GRANT, PROMOTE, DEMOTE, ASSIGN, BEACON? -/
def leaseClass (msg : Nat) : Bool := (0x10 ≤ msg && msg ≤ 0x14) || msg == 0x30

/-- A marshal port, with the frames that wait on it. -/
def State.wire (s : State) (port : Nat) : Wire := tget s.wires port {}
def State.setWire (s : State) (port : Nat) (w : Wire) : State := { s with wires := tset {} s.wires port w }

/-- The address of a node: 63 and unnumbered devices are reached by the broadcast address. -/
def pouvexAddress (node : Nat) : List Byte :=
  if node = 63 ∨ node = 0xFE then List.replicate 6 0xFF else [0x02, 0x47, 0x4C, 0x50, 0x56, byte node]

/-- Fragment `k` of a message as a frame, from DA to the byte before its FCS (Table 13.3). -/
def State.pouvexFrame (s : State) (port dst msg seq : Nat) (body : List Byte) (k : Nat) : List Byte :=
  let l := pouvexAddress dst ++ [0x02, 0x47, 0x4C, 0x50, 0x56, byte s.node] ++ [0x88, 0xB5, 1, byte msg, byte dst, byte s.node]
    ++ [byte (port * 128), 63] ++ beBytes 2 seq ++ beBytes 2 body.length ++ [byte k, byte (pouvexFrames body.length)]
    ++ beBytes 4 (s.num 0xB000 2) ++ (body.drop (1024 * k)).take 1024
  l ++ List.replicate (60 - l.length) 0

/-- The frames of a message on a port, in order. -/
def State.pouvexMessage (s : State) (port dst msg seq : Nat) (body : List Byte) : List (List Byte) :=
  (List.range (pouvexFrames body.length)).map fun k => s.pouvexFrame port dst msg seq body k

/-- A frame waits on a port: behind those of the lease class, and ahead of all others if it is of that class (R342). -/
def State.queueWire (s : State) (port : Nat) (f : WireFrame) : State :=
  let w := s.wire port
  let waiting := if f.lease then w.waiting.filter WireFrame.lease ++ [f] ++ w.waiting.filter (!·.lease) else w.waiting ++ [f]
  s.setWire port { w with waiting }

/-- Does a marshal port run: its lane has its clock (14 R359), and the device is not DORMANT? -/
def State.wireRuns (s : State) (port : Nat) : Bool :=
  s.locked (.lane (Fin.ofNat 36 (34 + port))) && !(s.pow.state == .dormant)

/-- The time a frame takes on a marshal port at 25 Gb/s with its FCS, preamble and gap, ps (Table 13.2; log entry 88). -/
def wirePs (f : WireFrame) : Nat := (max 60 f.frame.length + 24) * 8 * 40

/-- The frames that a port begins to send by `now`, none before `from_` (R342): a frame in transmission is not interrupted. -/
def Wire.send (from_ now : Nat) : Nat → Wire → List WireFrame × Wire
  | 0, w => ([], w)
  | n + 1, w =>
    match w.waiting with
    | [] => ([], w)
    | f :: rest =>
      let at_ := max w.busyUntil from_
      if now < at_ then ([], w)
      else
        let (l, w) := Wire.send from_ now n { waiting := rest, busyUntil := at_ + wirePs f }
        (f :: l, w)

/-- The output of a frame. -/
def State.wireOut (port : Nat) (s : State) (f : WireFrame) : State :=
  if f.relay then (s.emit (.pouvexRelay port f.frame)).count (Num.pouvexRelayed port)
  else (s.emit (.pouvex port f.frame)).count (Num.pouvexSent port)

/-- A marshal port sends what it can. -/
def State.sendWire (from_ : Nat) (s : State) (port : Nat) : State :=
  let w := s.wire port
  if w.waiting.isEmpty || !s.wireRuns port then s
  else
    let (l, w) := w.send from_ s.now w.waiting.length
    l.foldl (State.wireOut port) (s.setWire port w)

/-- Both marshal ports send what they can. -/
def State.sendWires (s : State) (from_ : Nat) : State := [0, 1].foldl (State.sendWire from_) s

/-- One message on one marshal port with the sequence number given; a standalone device sends none (13 R339). -/
def State.pouvexOn (s : State) (port dst msg seq : Nat) (body : List Byte) : State :=
  if s.domainRole = 0 then s else
  (s.pouvexMessage port dst msg seq body).foldl
    (fun s frame => s.queueWire port { lease := leaseClass msg, frame }) s

/-- A message on M0 and M1 with one new sequence number; a standalone device sends none (13 R339), nor does one whose Marshal
group does not run (11 R292). -/
def State.pouvexSend (s : State) (dst msg : Nat) (body : List Byte) : State :=
  if s.domainRole = 0 || !s.groupActs marshalGroup then s else
  let q := s.dom.seq.toNat
  let s := { s with dom.seq := s.dom.seq + 1 }
  (s.pouvexOn 0 dst msg q body).pouvexOn 1 dst msg q body

/-! ### Mirror records (12 R319, R320) -/

/-- The replay queue holds at most 1 GiB of records of 4 header bytes and a padded body. -/
def MirrorRec.bytes (r : MirrorRec) : Nat := 4 + (r.body.length + 3) / 4 * 4
def replayBytes (l : List MirrorRec) : Nat := (l.map MirrorRec.bytes).sum
def replayLimit : Nat := 2 ^ 30

/-- The lane that carries the next records of the stream: the lanes that are up take frames in turn (12 R317; which frame goes on
which lane: DESIGN CHOICE, log entry 63). -/
def State.sallarLane (s : State) : Option Nat :=
  match bit s.pair.laneUp.toNat 0, bit s.pair.laneUp.toNat 1 with
  | true, true => some (if s.pair.laneTurn then 1 else 0)
  | true, false => some 0
  | false, true => some 1
  | false, false => none

/-- FLAGS of a Sallar frame (12 Table 12.2). -/
def State.sallarFlags (s : State) : Nat :=
  flagIf (s.pair.role == .active || s.pair.role == .held) 15 + flagIf (s.pair.role == .fenced) 14
    + flagIf s.pair.drainDone 13 + flagIf s.pair.anchorLost 12 + flagIf (s.pair.role == .held) 11
    + flagIf (s.pair.sync == .inSync) 10

/-- A mirror record on the wire: type, reserved, length, padded body. -/
def MirrorRec.wire (r : MirrorRec) : List Byte :=
  [byte r.ty, 0] ++ beBytes 2 r.body.length ++ r.body ++ List.replicate ((4 - r.body.length % 4) % 4) 0

/-- A Sallar frame from DA to the end of its records (12 Table 12.2). -/
def State.sallarFrame (s : State) (kind : Nat) (recs : List MirrorRec) : List Byte :=
  let peer := s.num 0xA000 2
  let mac (n : Nat) := [0x02, 0x47, 0x4C, 0x53, 0x4C, byte n]
  let first := match recs with
    | r :: _ => r.seq.toNat
    | [] => s.pair.nextSeq.toNat
  mac peer ++ mac s.node ++ [0x88, 0xB6, 0x01, byte kind, byte s.node, byte peer]
    ++ beBytes 4 s.pair.epoch.toNat ++ beBytes 4 first ++ beBytes 4 (if s.pair.follows then s.pair.expected.toNat else 0)
    ++ beBytes 2 s.sallarFlags ++ beBytes 2 s.pair.sallarHb.toNat ++ beBytes 2 recs.length
    ++ (recs.map MirrorRec.wire).flatten

/-- Send one Sallar frame on a lane; the heartbeat count advances, and a frame that says the anchor is lost is dated. -/
def State.sallarSend (s : State) (lane kind : Nat) (recs : List MirrorRec) : State :=
  let s := s.emit (.sallar lane (s.sallarFrame kind recs))
  { s with pair := { s.pair with
      laneTx := tput s.pair.laneTx lane s.now
      sallarHb := if kind = 3 then s.pair.sallarHb + 1 else s.pair.sallarHb
      laneTurn := if kind = 3 then s.pair.laneTurn else lane = 0
      asked := s.pair.asked || !s.pair.follows
      confirmTx := if s.pair.anchorLost then some s.now else s.pair.confirmTx } }

/-- Drop the oldest records until the queue fits its limit. -/
def fitReplay : Nat → List MirrorRec → List MirrorRec
  | n, [] => if n = 0 then [] else []
  | n, r :: l => if n ≤ replayLimit then r :: l else fitReplay (n - r.bytes) l

/-- Does the device emit mirror records now (12 R315)? -/
def State.mirrors (s : State) : Bool :=
  s.pairingOn && (s.pair.role == .active || s.pair.role == .held)

/-- What a record becomes while a bulk copy is under way (12 R332): the delta of a tail at or above the cursor is withheld,
since the copy carries its later value; the deletion of such a record still returns its index to the free list, which the copy
does not carry again (log entry 63). -/
def State.withheld (s : State) (ty : Nat) (body : List Byte) : Option (Nat × List Byte) :=
  if s.pair.bulkOn && decide (s.pair.bulkCursor.toNat ≤ beAt body 0 4) then
    match ty with
    | 1 | 2 | 4 | 9 => none
    | 3 => some (11, body.take 4)
    | _ => some (ty, body)
  else some (ty, body)

/-- Emit one mirror record (12 R319, R320): it takes the next sequence number, enters the replay queue, from which the
oldest records are discarded when it is full, and goes out on the link. -/
def State.mirrorOut (s : State) (ty : Nat) (body : List Byte) : State :=
  let r : MirrorRec := { seq := s.pair.nextSeq, ty, body }
  let q := s.pair.replay ++ [r]
  let q' := fitReplay (replayBytes q) q
  let s := { s with pair := { s.pair with
    replay := q', nextSeq := s.pair.nextSeq + 1
    loss := s.pair.loss || q'.length < q.length
    lost := s.pair.lost || (!s.pair.loss && q'.length < q.length)
    ackAt := if s.pair.replay.isEmpty then s.now else s.pair.ackAt } }
  let s := s.count (Num.recordsSent (ty - 1))
  match s.sallarLane with
  | some l => s.sallarSend l 1 [r]
  | none => s

/-- The mirror record of a change, where the device emits such records and none of a bulk copy stands in its place. -/
def State.mirror (s : State) (ty : Nat) (body : List Byte) : State :=
  match if s.mirrors then s.withheld ty body else none with
  | some (ty, body) => s.mirrorOut ty body
  | none => s

/-! ### Events (02 R44 to R46; 16 R414, R420 to R423) -/

def State.source (s : State) (n : Nat) : EventSource := tget s.evt n {}
def State.setSource (s : State) (n : Nat) (e : EventSource) : State := { s with evt := tset {} s.evt n e }

/-- SEQ runs from 0x0001 to 0xFFFF, then 0x0001 again. -/
def nextEventSeq (q : BitVec 16) : BitVec 16 := if q = 0xFFFF then 1 else q + 1

/-- The status word of a source (02 Table 2.8). -/
def EventSource.word (e : EventSource) : Nat :=
  e.seq.toNat * 2 ^ 16 + b1 e.pend * 2 ^ 15 + e.flags.toNat

/-- The hold-off of a source, 1 µs. -/
def holdOff : Nat := usPs

/-- Captured data: fields of 1, 2, 4 or 8 bytes, each aligned to its own size, filled from byte 0 (16 R421). -/
def capture (fields : List (Nat × Nat)) : List Byte :=
  (fields.foldl (fun bs f => bs ++ List.replicate ((f.1 - bs.length % f.1) % f.1) 0 ++ leBytes f.1 f.2) []).take 16

/-- An event record of 32 bytes for a log ring (13 R351): node, source, status word, time, captured data. -/
def eventRecord (node n word time : Nat) (cap : List Byte) : List Byte :=
  [byte node, 0] ++ leBytes 2 n ++ leBytes 4 word ++ leBytes 8 time ++ slice cap 0 16

/-- The body of EVENT (13 Table 13.5). -/
def eventBody (n word time : Nat) (cap : List Byte) : List Byte :=
  beBytes 2 n ++ [0, 0] ++ beBytes 4 word ++ beBytes 8 time ++ slice cap 0 16

def msgEvent : Nat := 0x20

/-- Send EVENT for a source to the active anchor, and await its acknowledge (13 R350); while the Marshal group does not run
the content waits for EVENT_RESEND (11 R292). -/
def State.forwardNow (s : State) (n : Nat) (seq : BitVec 16) (body : List Byte) : State :=
  let f : Forward := { seq, body, due := s.now + s.num 0xB000 10 * nsPs }
  let s := { s with dom.forwards := tput s.dom.forwards n f }
  if s.groupActs marshalGroup then (s.pouvexSend s.dom.anchor.toNat msgEvent body).count Num.eventsForwarded else s

/-- The forwarding of an advance (13 R350): sent at once, or kept in place of the unsent content. -/
def State.forward (s : State) (n : Nat) (e : EventSource) : State :=
  if s.isWorker && bit (s.active 0xB000 9 (n / 8)) (n % 8) then
    let body := eventBody n e.word e.time.toNat e.capture
    match tfind s.dom.forwards n with
    | none => s.forwardNow n e.seq body
    | some f => { s with dom.forwards := tput s.dom.forwards n { f with replaced := some body } }
  else s

def State.ring (s : State) (r : Nat) : Ring := tget s.host.rings r {}
def State.setRing (s : State) (r : Nat) (g : Ring) : State := { s with host.rings := tset {} s.host.rings r g }
def Ring.base (g : Ring) : Nat := g.baseHi.toNat * 2 ^ 32 + g.baseLo.toNat * 2 ^ 12
def Ring.entries (g : Ring) : Nat := 2 ^ g.sizeLog2.toNat
/-- The host address of entry `i` (10 R273). -/
def Ring.addr (g : Ring) (i : Nat) : Nat := g.base + 32 * (i % g.entries)

def ringStateCode : RingState → Nat
  | .stopped => 0 | .running => 1 | .stopping => 2 | .error => 3

/-- RING_STATE (10 Table 10.10). -/
def Ring.stateWord (g : Ring) : Nat := g.reason.toNat * 16 + ringStateCode g.state

/-- Event source numbers (16 Table 16.5). -/
def evRing (r : Nat) : Nat := 0x80 + r

/-- How an event is raised inside an operation that may itself be raised from an event. -/
abbrev Raiser := Nat → Nat → List Byte → State → State

/-- One more completion of a ring (10 R276, Table 10.10): reported at once when COAL_COUNT of them stand unreported, or
when the timer that the first of them starts has run. -/
def ringComplete (raise : Raiser) (r : Nat) (s : State) : State :=
  let g := s.ring r
  let u := g.unreported + 1
  if u ≥ max 1 g.coalCount.toNat then
    let s := s.setRing r { g with unreported := 0, coalEnd := none }
    raise (evRing r) 1 (capture [(4, g.stateWord)]) s
  else
    let e := if g.coalEnd.isSome then g.coalEnd
      else if g.coalTime = 0 then none else some (s.now + g.coalTime.toNat * usPs)
    s.setRing r { g with unreported := u, coalEnd := e }

/-- Can a log ring take `n` records now (10 R280)? -/
def Ring.logRoom (g : Ring) (n : Nat) : Bool :=
  g.state == .running && decide ((g.dev - g.hostIdx).toNat + n ≤ g.entries)

/-- Write one record to a log ring at RING_DEV, then advance RING_DEV; or lose it, with NOBUF (10 R280). The answer says
whether the record was written. -/
def logWrite (raise : Raiser) (r : Nat) (rec : List Byte) (s : State) : Bool × State :=
  let g := s.ring r
  if g.logRoom 1 then
    let s := s.emit (.dma (g.addr g.dev.toNat) rec)
    let s := (s.setRing r { g with dev := g.dev + 1 }).count (Num.logWritten (r - 32))
    (true, ringComplete raise r s)
  else
    let s := s.count (Num.logRingLost (r - 32))
    (false, raise (evRing r) 16 (capture [(4, g.stateWord)]) s)

/-- What one advance of a source's SEQ does beside the status word (16 R422, R423): the interrupt, the local event log and
the forwarding to the anchor. -/
def advanceEffects (raise : Raiser) (dormant : Bool) (n : Nat) (s : State) : State :=
  let e := s.source n
  let rt := (tget s.route n 0).toNat
  let s := if bit rt 11 then s.msix dormant (bits rt 0 11) else s
  let s := (below 3 fun g => bit rt (16 + g) && s.groupRuns g).foldl (fun s g => s.emit (.groupIrq g n)) s
  let s := if bit (s.active 0xE200 2 (n / 8)) (n % 8) then
      let (ok, s) := logWrite raise 35 (eventRecord s.node n e.word e.time.toNat e.capture) s
      if ok then s.count (Num.localWritten 1) else s.count (Num.localLost 1)
    else s
  s.forward n e

/-- Advance SEQ with flags at the instant `at_`, opening a new hold-off (02 R46). -/
def seqAdvance (raise : Raiser) (dormant : Bool) (n flags at_ : Nat) (s : State) : State :=
  let e := s.source n
  let s := s.setSource n { e with
    seq := nextEventSeq e.seq, pend := true, flags := e.flags ||| BitVec.ofNat 15 flags
    holdEnd := some (at_ + holdOff), fell := false, deferred := 0 }
  advanceEffects raise dormant n s

/-- The deferred advance at the end of a hold-off in which an event fell, if that end has come. -/
def closeHoldOff (raise : Raiser) (dormant : Bool) (n : Nat) (s : State) : State :=
  let e := s.source n
  match e.holdEnd with
  | some h => if e.fell && decide (h ≤ s.now) then seqAdvance raise dormant n e.deferred.toNat h s else s
  | none => s

/-- The source that a freeze follows now: a write of this clock retargets it from the next (16 R414). -/
def Counters.sourceAt (c : Counters) (now : Nat) : BitVec 10 :=
  match c.retarget with
  | some (a, n) => if a = now then n else c.freezeSource
  | none => c.freezeSource

/-- Does the next event of CNT_FREEZE.SOURCE take a freeze: one is armed, or a snapshot command of this very clock disarmed it
(16 R415: the freeze is taken first)? -/
def State.freezeOpen (s : State) : Bool :=
  s.cnt.armed || (s.cnt.grip == some s.now && match s.cnt.phase with
    | .copying freeze _ => !freeze
    | _ => false)

/-- Flags that a clearing write of this clock took from a status word. -/
def EventSource.taken (e : EventSource) (now : Nat) : BitVec 15 :=
  match e.cleared with
  | some (a, f) => if a = now then f else 0
  | none => 0

/-- An event of a source (02 R46): captured data and time at once; SEQ at once outside a hold-off, at its end inside one. A
clearing write of the same clock comes after it and clears nothing (02 R45). -/
def raiseWith (raise : Raiser) (dormant : Bool) (n flags : Nat) (cap : List Byte) (s : State) : State :=
  let s := closeHoldOff raise dormant n s
  let s := if s.freezeOpen && (s.cnt.sourceAt s.now).toNat == n then { s with cnt.triggered := true } else s
  let e := s.source n
  let e := { e with
    flags := e.flags ||| e.taken s.now, cleared := none, eventAt := some s.now, time := BitVec.ofNat 64 s.ns0, capture := cap }
  let inHold := match e.holdEnd with
    | some h => decide (s.now < h)
    | none => false
  if inHold then
    s.setSource n { e with
      pend := true, flags := e.flags ||| BitVec.ofNat 15 flags
      fell := true, deferred := e.deferred ||| BitVec.ofNat 15 flags }
  else seqAdvance raise dormant n flags s.now (s.setSource n e)

/-- Events raised by events (a log ring that loses a record of the event log): each level falls in a hold-off of the one
before, so three levels reach every case. -/
def raiseN : Nat → Bool → Raiser
  | 0, _ => fun _ _ _ s => s
  | k + 1, d => raiseWith (raiseN k d) d

/-- Is the device DORMANT? Set by the power state (14 R362). -/
def State.dormant (s : State) : Bool := s.pow.state == .dormant

/-- Raise an event of source `n` with its flags and captured data. -/
def State.raise (s : State) (n flags : Nat) (cap : List Byte := []) : State := raiseN 4 s.dormant n flags cap s

/-- One completion of a ring. -/
def State.complete (s : State) (r : Nat) : State := ringComplete (raiseN 4 s.dormant) r s
/-- One record to a log ring. -/
def State.log (s : State) (r : Nat) (rec : List Byte) : Bool × State := logWrite (raiseN 4 s.dormant) r rec s

/-- Is the word that was read uncorrectable? -/
def eccBad : Ecc → Bool
  | .good => false
  | .corrected => false
  | _ => true

/-- A corrected or uncorrectable word of memory `m` (16 R424, Table 16.7). -/
def State.memEvent (s : State) (m : Nat) (uncorrectable scrub : Bool) (cap : List Byte) : State :=
  let s := s.count (if uncorrectable then Num.eccUncorrectable m else Num.eccCorrected m)
  s.raise (0x1BC + m) (flagIf (!uncorrectable) 0 + flagIf uncorrectable 1 + flagIf scrub 2) cap

/-! ### The end of a command -/

/-- The cut of a snapshot (02 R47; 16 R413, R414): the bank that is not current takes every counter, and the time. -/
def State.cut (s : State) (freeze dump : Bool) : State :=
  let c := s.cnt
  let c := if c.bank then { c with bank0 := c.vals } else { c with bank1 := c.vals }
  { s with cnt := { c with
      cutTime := ptimeOfNs s.ns0
      armed := false, triggered := false
      grip := if freeze || c.armed then some s.now else none
      phase := .copying freeze dump } }

/-- The freeze, at the end of the clock of its event (16 R414): an event of this command took it, and a snapshot command that
came first within the clock is dropped with OVERRUN (R415); or it was taken earlier in this clock, and its cut takes in what
this command counted. -/
def State.takeFreeze (s : State) : State :=
  if s.cnt.triggered then
    let dropped := s.cnt.overrun || !s.cnt.armed || s.cnt.rearmed == some s.now
    { (s.count Num.freezes).cut true s.cnt.freezeDump with cnt.overrun := dropped }
  else match s.cnt.phase with
    | .copying true dump => if s.cnt.grip == some s.now then s.cut true dump else s
    | _ => s

/-- What the end of a command settles: the freeze that an event of this command triggered (16 R414), and the event of each
narrow counter that reached its last value (16 R411), and the loss of mirror records (12 R320); and the marshal ports send
what waits for them (13 R342). -/
def State.settle (s : State) : State :=
  let sat := s.cnt.saturated
  let s := { s with cnt.saturated := [] }
  let s := sat.reverse.foldl (fun s n => s.raise 0x1C5 1 (capture [(4, n)])) s
  let lost := s.pair.lost
  let s := { s with pair.lost := false }
  let s := if lost then s.raise 0x1AF 2 (capture [(4, s.pair.lastApplied.toNat)]) else s
  let s := s.takeFreeze
  s.sendWires s.now

end Sys2Proof.Machine
end

