-- ==== Sys2Proof/Machine/Ports.lean ====
section
/-! DEFINITION. Ports and their rates, slices and their wakes, and the tables of frames, copies and queues. -/
namespace Sys2Proof.Machine

/-! ### Ports (03 R58, Table 3.1) -/

def frontPorts : Nat := 32
def hostPort : Nat := 32
def recircPort : Nat := 33
def allPorts : Nat := 34

/-- Lanes of a port mode. -/
def modeLanes (m : Nat) : Nat := if m = 0 then 0 else if m = 1 then 4 else if m = 2 then 2 else 1
/-- Data rate of a port mode, Gb/s. -/
def modeRate (m : Nat) : Nat :=
  match m with
  | 1 => 400 | 2 => 200 | 3 => 100 | 4 => 50 | 5 => 25 | 6 => 10 | _ => 0

def State.portMode (s : State) (p : Nat) : Nat := s.num (0x2000 + p) 1
/-- Data rate of any port, Gb/s: P32 and P33 are paced as ports of 200 and 400 Gb/s (01 R12). -/
def State.portRate (s : State) (p : Nat) : Nat :=
  if p = hostPort then 200 else if p = recircPort then 400 else modeRate (s.portMode p)
/-- Time of one byte on a port, ps; 0 on a disabled port. -/
def State.bytePs (s : State) (p : Nat) : Nat := 8000 / s.portRate p

def portSlice (p : Nat) : Nat := if p = hostPort then 0 else if p = recircPort then 3 else p / 8
def slicePorts (sl : Nat) : List Nat := (below allPorts fun p => portSlice p == sl)

def State.port (s : State) (p : Nat) : Port := tget s.ports p {}
def State.setPort (s : State) (p : Nat) (v : Port) : State := { s with ports := tset {} s.ports p v }
def State.slice (s : State) (i : Nat) : Slice := tget s.pow.slices i {}
def State.setSlice (s : State) (i : Nat) (v : Slice) : State := { s with pow.slices := tset {} s.pow.slices i v }
def State.egr (s : State) (p : Nat) : Egress := tget s.egress p {}
def State.setEgr (s : State) (p : Nat) (v : Egress) : State := { s with egress := tset {} s.egress p v }

/-- P32's link state (10 R281). -/
def State.hostUp (s : State) : Bool := !(s.host.proto == .down) && s.host.busMaster

/-- Link state up of any port (10 R281, 14 R371). -/
def State.portUp (s : State) (p : Nat) : Bool :=
  if p = hostPort then s.hostUp
  else if p = recircPort then !((s.slice 3).state == .off)
  else (s.port p).link == .up

/-- Which counter a frame that the device takes in by no stage counts in: standby (12 R316), fenced (12 R325), unnumbered or
held (13 R340), power hold (14 R362); none while frames are taken in. -/
def State.intakeClosed (s : State) : Option (Nat → Nat) :=
  if s.pairingOn && s.pair.role == .standby then some Num.standbyDiscards
  else if s.pairingOn && s.pair.role == .fenced then some Num.fenceDiscards
  else if s.isWorker && !(s.dom.member && s.ao.node != 0xFE) then some Num.holdDiscards
  else if s.pow.state == .hold || s.pow.state == .dormant
      || (s.pow.target.map Prod.fst == some .hold || s.pow.target.map Prod.fst == some .pairStandby) then
    some Num.powerHoldDiscards
  else if s.pow.state == .pairStandby then some Num.standbyDiscards
  else none

/-- Do the TX rings take nothing in: fenced (12 R325), or in or on the way to HOLD and what follows it (14 R362)? In standby
they go on, and their frames are discarded as those of every port (12 R316). -/
def State.ringsHeld (s : State) : Bool :=
  (s.pairingOn && s.pair.role == .fenced) || s.pow.state == .hold || s.pow.state == .dormant
    || s.pow.target.map Prod.fst == some .hold || s.pow.target.map Prod.fst == some .pairStandby

/-! ### Slices (14 R372, R373) -/

/-- Causes of a wake, in the order of R372. -/
def wakeFrame : Nat := 0
def wakeAnnounce : Nat := 1
def wakeHost : Nat := 2
def wakeRecirc : Nat := 3
def wakeSpan : Nat := 4
def wakeAccess : Nat := 5
def wakeTransition : Nat := 6
def wakePolicy : Nat := 7

/-- Wake delays of Table 14.7. -/
def wakeDelay : SliceState → Nat
  | .nap => 40 * nsPs
  | .doze => 1500 * nsPs
  | .off => 150 * usPs
  | .run => 0

/-- Does a slice run: it is in RUN, and its clock is not gated (R359)? -/
def State.sliceRuns (s : State) (i : Nat) : Bool := (s.slice i).state == .run && s.locked .pipeline

/-- A wake request for a slice in NAP or DOZE; one already made stands. Wakes for an access advance 0x1210.03 (02 R56). -/
def State.wake (s : State) (i cause : Nat) : State :=
  let v := s.slice i
  if (v.state == .nap || v.state == .doze) && v.wakeAt.isNone then
    let s := if cause = wakeAccess then { s with dict.wakes := s.dict.wakes + 1 } else s
    (s.setSlice i { v with wakeAt := some (s.now + wakeDelay v.state) }).count (Num.wakes i cause)
  else s

/-! ### gPTP messages (08 R228, R235) -/

/-- The messageType and the domain number of a gPTP message (PRESUMED from IEEE 802.1AS-2020, log entry 46). -/
def gptpOf (bs : List Byte) : Option (Nat × Nat) :=
  if beAt bs 12 2 = 0x88F7 then some (byteAt bs 14 % 16, byteAt bs 18) else none
/-- An event message is one that is stamped. -/
def gptpEvent (bs : List Byte) : Bool := (gptpOf bs).any fun x => decide (x.1 < 4)
/-- The message types of 802.1AS by ascending messageType: Sync, Pdelay_Req, Pdelay_Resp, Follow_Up, Pdelay_Resp_Follow_Up,
Announce, Signaling. -/
def gptpColumn (ty : Nat) : Option Nat := ([0, 2, 3, 8, 10, 11, 12] : List Nat).idxOf? ty

/-- The Timekeepers count a message of an instance that is enabled: sent (0) or received (1) on a port. -/
def State.countGptp (s : State) (p dir : Nat) (bs : List Byte) : State :=
  match gptpOf bs with
  | some (ty, n) =>
    match gptpColumn ty, (List.range 2).find? fun d => s.num (0x6500 + d) 1 == 1 && s.num (0x6500 + d) 2 == n with
    | some k, some d => if s.groupActs timekeepersGroup then s.count (Num.gptpMessages p (14 * d + 2 * k + dir)) else s
    | _, _ => s
  | none => s

/-! ### Frames and copies -/

def State.frame (s : State) (f : Nat) : Option Frame := tfind s.buf.frames f
def State.setFrame (s : State) (f : Nat) (v : Frame) : State := { s with buf.frames := tput s.buf.frames f v }
def State.dropFrame (s : State) (f : Nat) : State := { s with buf.frames := tdel s.buf.frames f }
/-- Change a frame that exists. -/
def State.onFrame (s : State) (f : Nat) (g : Frame → Frame) : State :=
  match s.frame f with
  | some v => s.setFrame f (g v)
  | none => s
def State.copy (s : State) (c : Nat) : Option Copy := tfind s.buf.copies c
def State.setCopy (s : State) (c : Nat) (v : Copy) : State := { s with buf.copies := tput s.buf.copies c v }
def State.onCopy (s : State) (c : Nat) (g : Copy → Copy) : State :=
  match s.copy c with
  | some k => s.setCopy c (g k)
  | none => s

/-- A new frame with the next number of the model. -/
def State.newFrame (s : State) (v : Frame) : State :=
  { s with buf := { s.buf with frames := tput s.buf.frames s.buf.nextFrame v, nextFrame := s.buf.nextFrame + 1 } }

/-! ### Queues (08 R204, R205, R208) -/

def roundOf (p c : Nat) : Nat := p * 8 + c
def State.queue (s : State) (q : Nat) : Queue := tget s.queues q {}
def State.setQueue (s : State) (q : Nat) (v : Queue) : State := { s with queues := tset {} s.queues q v }
def State.round (s : State) (p c : Nat) : List Nat := tget s.rounds (roundOf p c) []
def State.setRound (s : State) (p c : Nat) (l : List Nat) : State := { s with rounds := tset [] s.rounds (roundOf p c) l }

/-- First queue and size exponent of the set of a port and class (Table 8.1). -/
def State.queueSet (s : State) (p c : Nat) : Nat × Nat :=
  let w := s.blk 0x6001 0 (4 * (8 * p + c)) 4
  (bits w 0 16, bits w 16 4)

/-- The bytes the queue hash covers (R205): the flow key when the frame passed through the flow stage, else VID and MACs. -/
def Frame.hashBytes (v : Frame) : List Byte :=
  match v.key with
  | some k => leBytes 40 k.toNat
  | none => beBytes 2 v.vid ++ beBytes 6 v.p.dmac ++ beBytes 6 v.p.smac

def State.quantum (s : State) (q : Nat) : Nat := s.blk 0x6002 0 (4 * q) 4 % 2 ^ 21

/-- Is the slice idle (14 R370)? In HOLD hold spans wake no slice (R362), and none keeps it from its rest. -/
def State.sliceIdle (s : State) (i : Nat) : Bool :=
  let mine (p : Nat) : Bool := portSlice p == i
  !(s.buf.frames.any fun e => mine e.2.port && e.2.stage == .staging && !e.2.refused)
    && !(s.buf.copies.any fun e => mine e.2.port && e.2.queued)
    && (tget s.buf.finish i {}).fifo.isEmpty
    && !(s.egress.any fun e => mine e.1 && (e.2.tx.isSome || e.2.suspended.isSome))
    && !((s.slice i).held && s.pow.state != .hold)

/-- The end of a command: since when each slice has been idle. -/
def State.markIdle (s : State) : State :=
  (List.range 4).foldl (fun s i =>
    let v := s.slice i
    let want := if s.sliceIdle i then some (v.idleSince.getD s.now) else none
    if v.idleSince = want then s else s.setSlice i { v with idleSince := want }) s

/-- The time that has passed in NAP, DOZE or OFF reaches the counters of each slice, which show whole microseconds
(14 R370, Table 14.16). -/
def State.settleSlices (s : State) : State :=
  (List.range 4).foldl (fun s i =>
    let v := s.slice i
    let d := s.now - v.since
    let put (s : State) (k ps : Nat) : State := { s with cnt.vals := tset 0 s.cnt.vals (Num.timeInState i k) (ps / usPs) }
    match v.state with
    | .run => s
    | .nap => put (s.setSlice i { v with nap := v.nap + d, since := s.now }) 0 (v.nap + d)
    | .doze => put (s.setSlice i { v with doze := v.doze + d, since := s.now }) 1 (v.doze + d)
    | .off => put (s.setSlice i { v with off := v.off + d, since := s.now }) 2 (v.off + d)) s

/-- The fused minimum voltage of a step; that of step 0 never exceeds 0.790 V (17 R432). -/
def fusedMillivolts (n : Nat) : Nat := if n = 0 then min 790 (Config.fusedMillivolts 0) else Config.fusedMillivolts n

/-! ### Receivers (14 R381) -/

/-- The FFE and DFE settings of a lane's receiver take new values, which are free (log entry 86). -/
def State.adaptTaps (s : State) (lane : Nat) : State :=
  let (x, s) := s.free
  let (y, s) := s.free
  { s with pow.taps := tset (0, 0) s.pow.taps lane (x, y) }

/-- A lane's receiver at link-up holds what training found: free values, of which the CTLE code is within the ceiling. -/
def State.trainLane (s : State) (lane : Nat) : State :=
  let (x, s) := s.free
  { s with pow.codes := tset 0 s.pow.codes lane (min (x % 32) (s.num 0xC200 9)) }.adaptTaps lane

/-- The management lanes of a device in a domain come up, at the end of boot and of DORMANT and when their PLL relocks. -/
def State.trainManagement (s : State) : State :=
  if s.num 0xB000 1 = 0 then s else (s.trainLane 34).trainLane 35

end Sys2Proof.Machine
end

