-- ==== Sys2Proof/Machine/Gates.lean ====
section
/-! DEFINITION. Gate lists and their windows, what may start before the next closing, the copy that a class offers, and
credit-based shapers (08 R208, R211 to R224). -/
namespace Sys2Proof.Machine

/-! ### Gate lists (08 R213 to R215) -/

/-- What a domain clock shows, in ps. -/
def State.domainPs (s : State) (d : Nat) : Nat := (s.clockNow d * 1000 + 2 ^ 31) / 2 ^ 32

/-- An interval of a cycle: its length in ps, the gates open in it, the slices it wakes. -/
structure Seg where
  dur : Nat
  gates : Nat
  wake : Nat
  deriving DecidableEq, Repr

/-- Entry `i` of a list of Table 8.3. -/
def gateEntry (list : List Byte) (i : Nat) : Seg :=
  let w := leAt list (8 * i) 8
  { dur := bits w 0 30 * 1000, gates := bits w 32 8, wake := bits w 48 4 }

/-- The intervals of a cycle; the last one holds to its end. -/
def GateSet.segs (g : GateSet) : List Seg :=
  let l := (List.range (g.list.length / 8)).map (gateEntry g.list)
  let rest := g.cycle * 1000 - (l.map Seg.dur).sum
  match l.getLast? with
  | some x => l.dropLast ++ [{ x with dur := x.dur + rest }]
  | none => []

/-- Position in the cycle at a time of the set's domain (R218: after a step, the position for the new time). -/
def GateSet.pos (g : GateSet) (t : Nat) : Nat := (((t : Int) - (g.base * 1000 : Nat)) % ((g.cycle * 1000 : Nat) : Int)).toNat

/-- The intervals from a position on, the first one shortened. -/
def segsFrom : List Seg → Nat → List Seg
  | [], _ => []
  | x :: r, p => if p < x.dur then { x with dur := x.dur - p } :: r else segsFrom r (p - x.dur)

/-- Time for which class `c` stays open from the start of the intervals given. -/
def openRun (c : Nat) : List Seg → Nat
  | [] => 0
  | x :: r => if bit x.gates c then x.dur + openRun c r else 0

/-- The interval in force at a time. -/
def GateSet.at_ (g : GateSet) (t : Nat) : Option Seg := (segsFrom g.segs (g.pos t)).head?
/-- Is the gate of `c` open at a time? -/
def GateSet.isOpen (g : GateSet) (c t : Nat) : Bool := !g.enabled || (g.at_ t).any fun x => bit x.gates c
/-- Time until the open gate of `c` closes; none: never. -/
def GateSet.closeIn (g : GateSet) (c t : Nat) : Option Nat :=
  let l := g.segs
  if l.all fun x => bit x.gates c then none else some (openRun c (segsFrom l (g.pos t) ++ l))

/-- The longest window of class `c`, W_c, in ps; none: open for the whole cycle, or gating disabled. -/
def GateSet.window (g : GateSet) (c : Nat) : Option Nat :=
  let l := g.segs
  if !g.enabled || l.all fun x => bit x.gates c then none
  else
    let step (a : Nat × Nat) (x : Seg) : Nat × Nat :=
      if bit x.gates c then (a.1 + x.dur, max a.2 (a.1 + x.dur)) else (0, a.2)
    some ((l ++ l).foldl step (0, 0)).2

/-- Does the list name slice `i` in a WAKE field (R230)? -/
def GateSet.names (g : GateSet) (i : Nat) : Bool :=
  g.enabled && (List.range (g.list.length / 8)).any fun j => bit (gateEntry g.list j).wake i

/-- The instant at which a time of a domain comes, ps. -/
def State.instantOf (s : State) (d ns : Nat) : Nat := s.now + (ns * 1000 - s.domainPs d)

/-- Does the plan cover the change time of a pending list of port `p` (R231): was it made with the list, and does it reach beyond
that time? -/
def State.planCovers (s : State) (p : Nat) (g : GateSet × Nat) : Bool :=
  s.pow.planned.contains (p, g) && decide (s.instantOf g.1.domain g.2 < s.pow.planEnd)

/-- T(x): the time of `x` bytes with preamble, SFD and inter-frame gap. -/
def State.txTime (s : State) (p x : Nat) : Nat := (x + 20) * s.bytePs p

/-- The largest frame S_c of a class of a front port. -/
def State.largest (s : State) (p c : Nat) : Nat :=
  let n := leAt (s.egr p).oper.sizes (2 * c) 2
  if n = 0 then s.num (0x2000 + p) 4 else n

/-- Is class `c` sent as preemptable on port `p` (R223)? -/
def State.preemptable (s : State) (p c : Nat) : Bool :=
  (s.egr p).preemption == .active && bit (s.egr p).oper.classes c

/-- Smallest fragment: 64 × (1 + afs) bytes. -/
def State.minFragment (s : State) (p : Nat) : Nat := 64 * (1 + (s.egr p).oper.fragment)
/-- h_adv(p) (R224). -/
def State.holdAdvance (s : State) (p : Nat) : Nat := s.txTime p (s.minFragment p + 63)

def State.gateOpen (s : State) (p c : Nat) : Bool :=
  let g := (s.egr p).oper
  g.isOpen c (s.domainPs g.domain)

/-- Time until the open gate of `c` closes, looked up in the pending list for times after its change time (R219). -/
def State.nextClose (s : State) (p c : Nat) : Option Nat :=
  let e := s.egr p
  let o := e.oper.closeIn c (s.domainPs e.oper.domain)
  match e.waiting with
  | none => o
  | some (g, at_) =>
    let d := at_ * 1000 - s.domainPs g.domain
    if o.any fun x => decide (x < d) then o
    else if !g.enabled then none
    else
      let g := { g with base := at_ }
      if g.isOpen c (at_ * 1000) then (g.closeIn c (at_ * 1000)).map (· + d) else some d

/-- For how long from now a copy of `len` bytes of class `c` may still start (R219); none: without limit. -/
def State.startRoom (s : State) (p c len : Nat) : Option Int :=
  let e := s.egr p
  if !e.oper.enabled then none
  else if !s.gateOpen p c then some (-1)
  else match s.nextClose p c with
    | none => none
    | some x =>
      if s.preemptable p c then some ((x : Int) - s.holdAdvance p - s.txTime p (s.minFragment p))
      else some ((x : Int) - s.txTime p len)

/-- The procedure may_start of R219. -/
def State.mayStart (s : State) (p c len : Nat) : Bool :=
  match s.startRoom p c len with
  | none => true
  | some r => decide (0 ≤ r)

/-! ### Deficit round robin (08 R208) -/

/-- What one queue of the round needs before it may offer its head: queue, head, rounds of quanta. -/
structure Turn where
  queue : Nat
  copy : Nat
  need : Nat
  deriving DecidableEq, Repr

def State.turnOf (s : State) (q : Nat) : Option Turn :=
  match (s.queue q).fifo with
  | [] => none
  | c :: _ =>
    -- a void marker needs no credit (R209)
    let len := match s.copy c with | some k => if k.void then 0 else k.len | none => 0
    let short := ((len : Int) - (s.queue q).deficit).toNat
    let quantum := max 1 (s.quantum q)
    some { queue := q, copy := c, need := (short + quantum - 1) / quantum }

/-- What class `c` offers next, and the round turned to it (R208): each queue passed over takes one quantum a visit. -/
def State.offer (s : State) (p c : Nat) : Option (Nat × Nat) × State :=
  let turns := (s.round p c).filterMap s.turnOf
  match leastBy Turn.need turns with
  | none => (none, s)
  | some w =>
    let before := turns.takeWhile (· != w)
    let after := turns.dropWhile (· != w)
    let add (n : Nat) (s : State) (x : Turn) : State :=
      let q := s.queue x.queue
      s.setQueue x.queue { q with deficit := q.deficit + (n * s.quantum x.queue : Nat) }
    let s := after.foldl (add w.need) (before.foldl (add (w.need + 1)) s)
    (some (w.queue, w.copy), s.setRound p c ((after ++ before).map Turn.queue))

/-! ### Credit-based shapers (08 R211, R212) -/

def State.shaper (s : State) (p c : Nat) : Shaper := tget (s.egr p).shapers c {}
def State.setShaper (s : State) (p c : Nat) (x : Shaper) : State :=
  let e := s.egr p
  s.setEgr p { e with shapers := tset {} e.shapers c x }

/-- Is a frame of class `c` on the wire of port `p`? -/
def State.sending (s : State) (p c : Nat) : Bool :=
  match (s.egr p).tx with
  | some x => (s.copy x.copy).any fun k => k.cls == c
  | none => false

/-- One step of 8 ns, in ps. -/
def shaperStep : Nat := 8000

/-- The credit of a class after the steps that lie between two instants, in which nothing of the port changed (R211). The
slope is in kb/s, so a step is worth 8,000 times as many 10^-9 bit. -/
def State.shaped (s : State) (p c : Nat) (x : Shaper) (from_ upTo : Nat) : Shaper :=
  let n := upTo / shaperStep - from_ / shaperStep
  let rate := s.portRate p * 1000000
  let up := min x.slope rate * 8000
  if x.slope = 0 then x
  else if s.sending p c then { x with credit := x.credit + ((up : Int) - (rate * 8000 : Nat)) * n }
  else if !s.gateOpen p c then x
  else
    match (s.offer p c).1 with
    | some (_, k) =>
      let room := s.startRoom p c (match s.copy k with | some k => k.len | none => 0)
      let last := match room with
        | none => upTo
        | some r => min upTo (from_ + (r + 1).toNat)
      { x with credit := x.credit + ((up * (last / shaperStep - from_ / shaperStep) : Nat) : Int) }
    | none =>
      if n = 0 then x
      else { x with credit := if x.credit < 0 then min 0 (x.credit + ((up * n : Nat) : Int)) else 0 }

/-- The credit of a class over the same time, when a fragment of it that a hold cut short is still on the wire (R224): it counts
as sending to its last byte. -/
def State.shapedPast (s : State) (p c : Nat) (x : Shaper) (from_ upTo : Nat) : Shaper :=
  match (s.egr p).fragment with
  | some (k, stop) =>
    if k = c ∧ x.slope ≠ 0 then
      let mid := min (max stop from_) upTo
      let rate := s.portRate p * 1000000
      let lost := ((min x.slope rate * 8000 : Nat) : Int) - (rate * 8000 : Nat)
      s.shaped p c { x with credit := x.credit + lost * (mid / shaperStep - from_ / shaperStep : Nat) } mid upTo
    else s.shaped p c x from_ upTo
  | none => s.shaped p c x from_ upTo

/-- The shapers of every port brought to the instant `upTo`; the state is that in force since the command before. -/
def State.settleShapers (s : State) (upTo : Nat) : State :=
  let ps := (s.egress.filter fun e => !e.2.shapers.isEmpty).map Prod.fst
  ps.foldl (fun s p =>
    let e := s.egr p
    let l := e.shapers.map fun (k : Nat × Shaper) => (k.1, s.shapedPast p k.1 k.2 e.shaperAt upTo)
    s.setEgr p { e with shapers := l, shaperAt := upTo }) s

end Sys2Proof.Machine
end

