-- ==== Sys2Proof/Machine/Groups.lean ====
section
/-! DEFINITION. Processor groups and mailbox endpoints: what the time that passes does to them, and how every command runs. -/
namespace Sys2Proof.Machine

/-! ### Mailbox channels (11 R304 to R309) -/

def State.chan (s : State) (c : Nat) : Channel := tget s.mbox.channels c {}
def State.setChan (s : State) (c : Nat) (h : Channel) : State := { s with mbox.channels := tset {} s.mbox.channels c h }
def State.bound (s : State) (c : Nat) : Binding := tget s.mbox.binding c {}

/-- Places held: outstanding messages and acknowledges not yet read (Table 11.11). -/
def Channel.places (h : Channel) : Nat := h.messages.length + h.acks.length
/-- MB_TXSTATE. -/
def Channel.txState (h : Channel) : Nat := h.places * 2 ^ 16 + h.posts.toNat * 2 ^ 8 + h.acked.toNat
/-- MB_RXINFO. -/
def Channel.rxInfo (h : Channel) : Nat :=
  match h.messages with
  | [] => 0
  | m :: _ => 2 ^ 31 + b1 m.orphan * 2 ^ 30 + h.messages.length * 2 ^ 24 + m.epoch.toNat * 2 ^ 16 + m.tag.toNat

/-- The group behind a master identity of Table 11.8, the Starter apart. -/
def masterGroup (code : Nat) : Option Nat :=
  match code with
  | 5 => some 0 | 6 => some 1 | 7 => some 2 | _ => none

/-- Advance MB_SSTATUS with flags. -/
def State.mbSender (s : State) (c flags : Nat) : State := s.raise (0x100 + c) flags (capture [(4, (s.chan c).txState)])
/-- Advance MB_RSTATUS with flags. -/
def State.mbReceiver (s : State) (c flags : Nat) : State := s.raise (0x140 + c) flags (capture [(4, (s.chan c).rxInfo)])

/-- The arrival reaches a master that is a running group, whatever EVT_ROUTE holds (16 R422). -/
def State.mbNotify (s : State) (code source : Nat) : State :=
  match masterGroup code with
  | some g => if s.groupRuns g then s.emit (.groupIrq g source) else s
  | none => s

/-- Acknowledges made by the hardware for messages, in posting order; an orphan's is discarded (R307). -/
def autoAcks (code : BitVec 16) (ms : List MbMessage) : List MbAck :=
  (ms.filter fun m => !m.orphan).map fun m => { tag := m.tag, code, auto := true }

/-- Has the channel a message that is no orphan and has been outstanding for 10 µs (R310)? -/
def State.waitsLong (s : State) (c : Nat) : Bool :=
  (s.chan c).messages.any fun m => !m.orphan && decide (m.at_ + 10 * usPs ≤ s.now)

/-- Is the pair of a bound channel crossed (R310)? -/
def State.crossedNow (s : State) (c : Nat) : Bool :=
  let p := (s.bound c).partner
  (s.bound c).valid && decide (p < 64) && s.waitsLong c && s.waitsLong p

/-- A pair that is no longer crossed may become crossed again. -/
def State.recross (s : State) (c : Nat) : State :=
  if s.crossedNow c then s else
    let p := (s.bound c).partner
    let s := s.setChan c { s.chan c with crossed := false }
    if p < 64 then s.setChan p { s.chan p with crossed := false } else s

/-- The acknowledges that a receiver reset of this clock has made, and the messages that it has purged. -/
def Channel.madeAt (h : Channel) (now : Nat) : Nat := match h.purgedAt with | some (a, n) => if a = now then n else 0 | none => 0
def Channel.purgedNow (h : Channel) (now : Nat) : List MbMessage := if h.purgedAt.any (fun p => p.1 == now) then h.purged else []

/-- Receiver reset (R307): purge, advance the epoch, advance MB_SSTATUS. -/
def State.mbResetReceiver (s : State) (c : Nat) : State :=
  let h := s.chan c
  let acks := autoAcks 0x00E1 h.messages
  let s := s.setChan c { h with
    messages := [], acks := h.acks ++ acks, acked := h.acked + BitVec.ofNat 8 acks.length, epoch := h.epoch + 1
    purgedAt := some (s.now, h.madeAt s.now + acks.length), purged := h.purgedNow s.now ++ h.messages }
  let s := s.recross c
  let s := (s.count (Num.mbAutoAcks c 0) acks.length).count (Num.mbResets c 1)
  let s := s.mbSender c (8 + flagIf (!acks.isEmpty) 0)
  if acks.isEmpty then s else s.mbNotify (s.bound c).sender (0x100 + c)

/-- Sender reset (R308): clear the buffer, discard acknowledges, mark orphans, advance the epoch, advance MB_RSTATUS. Of a
receiver reset in the same clock, which comes after it, the messages were orphans and no acknowledge was made (R309). -/
def State.mbResetSender (s : State) (c : Nat) : State :=
  let h := s.chan c
  let made := h.madeAt s.now
  let gone := h.purgedNow s.now
  let orphans (l : List MbMessage) : Nat := (l.filter MbMessage.orphan).length
  let found : MbReset := { at_ := s.now, txbuf := h.txbuf, places := h.places + orphans gone, orphans := orphans (gone ++ h.messages) }
  let s := s.setChan c { h with
    acked := h.acked - BitVec.ofNat 8 made
    txbuf := [], acks := [], messages := h.messages.map fun m => { m with orphan := true }, epoch := h.epoch + 1
    purgedAt := h.purgedAt.map fun p => if p.1 = s.now then (p.1, 0) else p
    resetAt := if h.resetAt.any (fun r => r.at_ == s.now) then h.resetAt else some found }
  let s := (List.range made).foldl (fun (s : State) _ => s.uncount (Num.mbAutoAcks c 0)) s
  ((s.recross c).count (Num.mbResets c 0)).mbReceiver c 8

/-- Reset every endpoint bound to a group that leaves RUNNING (R306): senders first, then receivers (R309). -/
def State.mbGroupReset (s : State) (g : Nat) : State :=
  let code := 5 + g
  let mine (f : Binding → Nat) := below 64 fun c => (s.bound c).valid && f (s.bound c) == code
  let s1 := (mine Binding.sender).foldl State.mbResetSender s
  (mine Binding.receiver).foldl State.mbResetReceiver s1

/-! ### Groups (11 R290 to R293) -/

def groupStateCode : ProcState → Nat
  | .stopped => 0 | .starting => 1 | .running => 2 | .fault => 3

/-- 0x9100+g.01 (Table 11.15). -/
def ProcGroup.word (p : ProcGroup) : Nat := groupStateCode p.state + b1 p.wdog * 4

/-- The group event with its flag and the group state (Table 11.17). -/
def State.groupEvent (s : State) (g flag : Nat) : State := s.raise (0x60 + g) (2 ^ flag) [byte (s.group g).word]

/-- The cores of a group: Marshal 0-3, Timekeepers 4-7, Judges 8-15. -/
def groupCores (g : Nat) : List Nat := if g = 0 then [0, 1, 2, 3] else if g = 1 then [4, 5, 6, 7] else [8, 9, 10, 11, 12, 13, 14, 15]
def coreNumber : CoreId → Nat
  | .marshal n => n.val | .timekeeper n => 4 + n.val | .judge n => 8 + n.val
def coreGroup : CoreId → Nat
  | .marshal _ => 0 | .timekeeper _ => 1 | .judge _ => 2

def State.core (s : State) (n : Nat) : Core := tget s.proc.cores n {}
def State.setCore (s : State) (n : Nat) (c : Core) : State := { s with proc.cores := tset {} s.proc.cores n c }
/-- The core of a number. -/
def coreOf (n : Nat) : CoreId :=
  if n < 4 then .marshal (Fin.ofNat 4 n) else if n < 8 then .timekeeper (Fin.ofNat 4 n) else .judge (Fin.ofNat 8 n)

/-- The items of a save list (11 Table 11.7), in the order of their slot. -/
inductive SaveItem where
  | general | vector | control | translation | interrupts | counters
  deriving DecidableEq, Repr

/-- The save list of a core: its items with their sizes in bytes (Table 11.7). -/
def saveList (core : CoreId) : List (SaveItem × Nat) :=
  let vectors := match core with
    | .timekeeper _ => []
    | _ => [(SaveItem.vector, 512)]
  [(SaveItem.general, 256)] ++ vectors ++ [(.control, 1024), (.translation, 2048), (.interrupts, 256), (.counters, 256)]

/-- A core's save slot: its offset in always-on memory and its size (Table 11.7). -/
def saveSlot : CoreId → Nat × Nat
  | .marshal n => (n.val * 4352, 4352)
  | .timekeeper n => (0xCC00 + n.val * 3840, 3840)
  | .judge n => (0x4400 + n.val * 4352, 4352)

/-- The interrupt distributor of a group: its offset in always-on memory, and its size. -/
def distributorSlot (g : Nat) : Nat × Nat := (0x10800 + g * 0x1000, 4096)

/-- Word `i` of the save slot of core `n`, once it has been written: what the core held (a free value, log entry 87). -/
def State.slotWord (s : State) (n i : Nat) : Option Nat :=
  if (s.core n).saved && decide (i < (saveSlot (coreOf n)).2 / 8) then some (Config.freeNat ((s.core n).slotAt + i)) else none

/-- How long the entry of a core into SLEEP takes (14 Table 14.7); `last`: of the last Marshal core, with the L2. -/
def coreEntry (g : Nat) (last : Bool) : Nat := if g = 1 then 8 * usPs else if last then 40 * usPs else 10 * usPs

/-- A core's power is removed (11 R299): its save list is written, its caches are cleaned and invalidated; the last core of
a group takes the distributor with it, and the last Marshal core the L2. -/
def State.sleepCore (s : State) (n : Nat) : State :=
  let core := coreOf n
  let s := { s with draw := s.draw + (saveSlot core).2 / 8 }.setCore n { s.core n with
    mode := .sleep, saved := true, slotAt := s.draw, cached := false }
  let g := coreGroup core
  let last := (groupCores g).all fun m => (s.core m).mode == .sleep
  let s := s.setCore n { s.core n with restsAt := s.now + coreEntry g (g == 0 && last) }
  if last then
    let s := { s with draw := s.draw + 512 }.setGroup g { s.group g with distributor := some s.draw }
    if g = 0 then { s with proc.l2Off := true } else s
  else s

/-- The wake delay of a core at rest (14 Table 14.7): from WAIT, and from SLEEP without and with the L2. -/
def State.coreDelay (s : State) (n : Nat) : Nat :=
  let g := coreGroup (coreOf n)
  match (s.core n).mode with
  | .wait => 50 * nsPs
  | .sleep => if g = 1 then 10 * usPs else if g = 0 && s.proc.l2Off then 25 * usPs else 12 * usPs
  | _ => 0

/-- A core at rest goes on at the instruction after REST once its wake delay has passed, from SLEEP with its slot restored (11
R298, R299; 14 R373). -/
def State.resumeCore (s : State) (n : Nat) : State :=
  let c := s.core n
  let g := coreGroup (coreOf n)
  let runsAt := s.now + s.coreDelay n
  match c.mode with
  | .wait => s.setCore n { c with mode := .executing, runsAt }
  | .sleep =>
    let s := s.setGroup g { s.group g with distributor := none }
    let s := if g = 0 then { s with proc.l2Off := false } else s
    s.setCore n { c with mode := .executing, saved := false, cached := true, runsAt }
  | _ => s

/-- Do the cores of a group run: those of a RUNNING group, and in FAULT those that restored their save lists (R292, R300)? -/
def State.coresRun (s : State) (g : Nat) : Bool :=
  s.groupActs g || ((s.group g).state == .fault && s.locked (groupPll g))

/-- A command for an entry that the group serves wakes its cores at rest (11 R299). -/
def State.wakeGroup (s : State) (g : Nat) : State :=
  if s.coresRun g then (groupCores g).foldl State.resumeCore s else s

/-- Put a group into a state in which its cores are held at their reset vectors, or into FAULT or RUNNING. A group that
leaves RUNNING loses WDOG and its watchdog, and its mailbox endpoints are reset (R292, R293, R306); the L2 of a Marshal group that
is held has its power again. -/
def State.toGroupState (s : State) (g : Nat) (p : ProcState) : State :=
  let old := s.group g
  let s1 := s.setGroup g { old with
    state := p
    wdog := old.wdog && p == .running
    deadline := if p == .running then old.deadline else none }
  let s2 := if p == .stopped || p == .starting then
      let s := if g = 0 then { s1 with proc.l2Off := false } else s1
      (groupCores g).foldl (fun s n => s.setCore n { s.core n with mode := .held, cached := false }) s
    else s1
  if old.state == .running && !(p == .running) then s2.mbGroupReset g else s2

/-- The effect of a group command, ten microseconds after the command completed (Table 11.1); in RECOVERY and FAILED the groups
stay STOPPED (15 R396). A restart clears the group's save slots (R300). -/
def State.groupCommand (s : State) (g code : Nat) : State :=
  let st := (s.group g).state
  match code with
  | 1 => if st == .stopped then s else s.toGroupState g .stopped
  | _ => if s.boot.state == .recovery || s.boot.state == .failed then s else match code with
  | 2 => if st == .stopped then s.toGroupState g .starting else s
  | _ =>
    let s := (groupCores g).foldl (fun s n => s.setCore n { s.core n with saved := false }) s
    let s := s.setGroup g { s.group g with distributor := none }
    (s.toGroupState g .stopped).toGroupState g .starting

/-- The group commands whose instant has come, in order, each at its instant. -/
def State.dueCommands (s : State) : State :=
  let due := s.proc.commands.filter fun c => decide (c.at_ ≤ s.now)
  let s1 := { s with proc.commands := s.proc.commands.filter fun c => !decide (c.at_ ≤ s.now) }
  due.foldl (fun s c => { ({ s with now := c.at_ }).groupCommand c.group c.code with now := s.now }) s1

/-! ### How a command runs -/

/-- The state in which a command at instant `t` begins. -/
def State.enter (s : State) (t : Nat) : State :=
  (((s.settleShapers (max s.now t)).advance t).settleSlices.sendWires 0).dueCommands

/-- Is the part held in reset: COLD_RST_N is low (17 R430), or a requested warm reset is due (15 R386), from which on nothing
happens until WARM_RESET? -/
def State.resetDue (s : State) : Bool :=
  s.ao.coldLow || match s.boot.resetAt with
  | some a => decide (a ≤ s.now)
  | none => false

/-- A command at instant `t` whose effect happens where `awake` holds; the end of every command settles what its effect
left. -/
def State.go (s : State) (t : Nat) (awake : State → Bool) (f : State → State) : State :=
  let e := s.enter t
  (if awake e && !e.resetDue then f e else e).settle.markIdle

/-- Fuses gain what a command blew and lose nothing: a fuse, once blown, is never unblown (15 R389). The flash and the state
of the owner slot are as the command left them. -/
def Nv.burn (a b : Nv) : Nv := { b with
  lifecycle := a.lifecycle ||| b.lifecycle
  ownerHash := orBytes a.ownerHash b.ownerHash
  ownerSet := a.ownerSet || b.ownerSet
  coSign := a.coSign || b.coSign
  galelekSv := max a.galelekSv b.galelekSv
  galelekAt := max a.galelekAt b.galelekAt
  ownerSv := max a.ownerSv b.ownerSv
  ownerAt := max a.ownerAt b.ownerAt
  leaf := max a.leaf b.leaf }

/-- Run a command at instant `t` whose effect reaches neither the fuses and the flash, nor what a warm reset keeps, nor
the queue. In DORMANT every domain but the always-on domain is off (14 R363), so nothing but time happens. -/
def State.run (s : State) (t : Nat) (f : State → State) : Result :=
  .next { s.go t (fun e => !e.dormant) f with now := max s.now t, pending := s.pending, nv := s.nv, ao := s.ao }

/-- Does a request of this master reach the device: the host's only while its link is trained (10 R263; 15 R388)? -/
def State.hears (s : State) (m : Master) : Bool := m != .host || s.host.proto != .down

/-- Does a command of a source reach the device: those of the windows in BAR2 come over the host link? -/
def State.hearsSource (s : State) (src : Source) : Bool :=
  match src with
  | .secure | .nonsecure => s.hears .host
  | _ => true

/-- Run a command that a master writes to a register of BAR0. -/
def State.runBy (s : State) (m : Master) (t : Nat) (f : State → State) : Result :=
  s.run t fun s => if s.hears m then f s else s

/-- Run a command of the slices and the core, which wait while the pipeline clock is gated (14 R359). -/
def State.runPipe (s : State) (t : Nat) (f : State → State) : Result :=
  s.run t fun s => if s.locked .pipeline then f s else s

/-- Run a command of Pouvex, which stops while the Marshal group does (11 R291, R292). -/
def State.runMarshal (s : State) (t : Nat) (f : State → State) : Result :=
  s.run t fun s => if s.groupActs marshalGroup then f s else s

/-- Run a command of the always-on domain, or one that DORMANT answers. -/
def State.runAny (s : State) (t : Nat) (f : State → State) : Result :=
  .next { s.go t (fun _ => true) f with now := max s.now t, pending := s.pending, nv := s.nv, ao := s.ao }

/-- Run a command that may change what a warm reset keeps. -/
def State.runAo (s : State) (t : Nat) (f : State → State) : Result :=
  .next { s.go t (fun _ => true) f with now := max s.now t, pending := s.pending, nv := s.nv }

/-- A further effect on the next state of a run: one that holds whatever state the part is in, as a pin's level does. -/
def mapNext (r : Result) (f : State → State) : Result :=
  match r with
  | .next s => .next (f s)
  | .fault why => .fault why
  | .refused why => .refused why

/-- Run a command that may blow fuses or program the flash. -/
def State.runNv (s : State) (t : Nat) (f : State → State) : Result :=
  let e := s.go t (fun _ => true) f
  .next { e with now := max s.now t, pending := s.pending, nv := s.nv.burn e.nv }

end Sys2Proof.Machine
end

