-- ==== Sys2Proof/Machine/Frames.lean ====
section
/-! DEFINITION. What the stages of the data path share: runs of numbers, frames and their actions, version counts, samples
and the end of a frame. -/
namespace Sys2Proof.Machine

/-! ### Runs of numbers -/

/-- How many numbers a list of runs holds. -/
def Runs.count (r : Runs) : Nat := (r.map Prod.snd).sum

/-- The number at the head, and the rest. -/
def Runs.pop : Runs → Option (Nat × Runs)
  | [] => none
  | (_, 0) :: r => Runs.pop r
  | (a, n + 1) :: r => some (a, if n = 0 then r else (a + 1, n) :: r)

/-- A number added at the tail. -/
def Runs.push : Runs → Nat → Runs
  | [], x => [(x, 1)]
  | [(a, n)], x => if a + n = x then [(a, n + 1)] else [(a, n), (x, 1)]
  | r :: rs, x => r :: Runs.push rs x

/-! ### Frames -/

/-- Bytes of a frame that have arrived by now; the MAC cuts it one byte past its maximum (03 R60). -/
def State.arrived (s : State) (v : Frame) : Nat :=
  if v.endAt.isSome then v.bytes.length
  else if v.bytePs = 0 then v.bytes.length else min ((s.now - v.startAt) / v.bytePs) (v.limit + 1)

/-- Length of a frame as it is known (07 R181): whole, or implied by its outer IP header; else what its port's maximum
frame allows, one byte more. -/
def Frame.knownLen (v : Frame) : Option Nat := if v.endAt.isSome then some v.bytes.length else v.p.implied
def Frame.assumedLen (v : Frame) : Nat := v.knownLen.getD (v.limit + 1)
/-- Cells of a frame of `n` bytes (07 R173). -/
def cellsOf (n : Nat) : Nat := (n + 255) / 256

/-- Bytes before the FCS. -/
def Frame.body (v : Frame) : List Byte := v.bytes.take (v.bytes.length - 4)

/-- Order domain: ingress port and classified class (07 R188). -/
def Frame.dom (v : Frame) : Nat := v.port * 8 + v.cls

/-- Fields of the action (03 Table 3.5). -/
def actTc (a : BitVec 128) : Option Nat := if bit a.toNat 3 then some (bits a.toNat 0 3) else none
def actVerdict (a : BitVec 128) : Nat := bits a.toNat 4 2
def actRedir (a : BitVec 128) : Nat := bits a.toNat 6 6
def actMirror (a : BitVec 128) : Option Nat := if bit a.toNat 16 then some (bits a.toNat 12 4) else none
def actPolicy (a : BitVec 128) : Nat := bits a.toNat 18 10
def actLearnDis (a : BitVec 128) : Bool := bit a.toNat 28
def actMeta (a : BitVec 128) : Nat := bits a.toNat 32 16

/-! ### Rule-version counts (03 R73, R74) -/

def State.verSlot (s : State) (v : Fin 4) : VersionSlot :=
  match v with
  | 0 => s.rules.slot0 | 1 => s.rules.slot1 | 2 => s.rules.slot2 | 3 => s.rules.slot3
def State.setVerSlot (s : State) (v : Fin 4) (x : VersionSlot) : State :=
  match v with
  | 0 => { s with rules.slot0 := x } | 1 => { s with rules.slot1 := x }
  | 2 => { s with rules.slot2 := x } | 3 => { s with rules.slot3 := x }

/-- The CURRENT slot. -/
def State.currentSlot (s : State) : Fin 4 :=
  if s.rules.slot1.state == .current then 1 else if s.rules.slot2.state == .current then 2
  else if s.rules.slot3.state == .current then 3 else 0

/-- Serial of the CURRENT slot: what a version event captures (Table 3.11). -/
def State.serial (s : State) : Nat := (s.verSlot s.currentSlot).serial.toNat
def State.versionEvent (s : State) (flags : Nat) : State := s.raise 0x187 flags (capture [(4, s.serial)])

/-- A row without slot `v`; a row that no slot has left and that is no staged ADD becomes free, and stays marked for a KEEP
(R74, R76). -/
def RuleRow.leave (v : Fin 4) (x : RuleRow) : RuleRow :=
  let slots := x.slots &&& ~~~ (BitVec.ofNat 4 (2 ^ v.val))
  if slots = 0 && !x.stagedAdd then { stagedKeep := x.stagedKeep } else { x with slots }

/-- The rows that remain when slot `v` is reclaimed (R74). -/
def leaveSlot (v : Fin 4) (t : Tab RuleRow) : Tab RuleRow :=
  (t.map fun e => (e.1, e.2.leave v)).filter fun e => e.2 != {}

/-- A DRAINING slot whose count is 0 becomes FREE, with the version-drained event (R74). -/
def State.drainSlot (s : State) (v : Fin 4) : State :=
  let x := s.verSlot v
  if x.state == .draining && x.frames == 0 then
    let s := s.setVerSlot v { x with state := .free }
    let s := { s with rules.rows := leaveSlot v s.rules.rows }
    s.versionEvent (2 ^ v.val)
  else s

/-- A frame stamped with `v` is gone. -/
def State.releaseSlot (s : State) (v : Fin 4) : State :=
  let x := s.verSlot v
  (s.setVerSlot v { x with frames := x.frames - 1 }).drainSlot v

/-! ### Samples (16 R416 to R418) -/

/-- Nanoseconds of domain 0 since a frame's timestamp. -/
def State.after (s : State) (v : Frame) : Nat := s.ns0 - v.tIn

/-- Change a frame's sample, if it has one. -/
def State.onSample (s : State) (f : Nat) (g : Nat → Sample → Sample) : State :=
  s.onFrame f fun v => { v with sample := v.sample.map (g (s.after v)) }

/-- The sample's drop reason, kept for a frame no copy of which fares better. -/
def State.sampleReason (s : State) (f r : Nat) : State :=
  s.onSample f fun _ x => { x with reason := r }

/-- An interval of Table 16.3. -/
def sampleTime : Option Nat → Nat
  | none => 0xFFFFFFFF
  | some n => min n 0xFFFFFFFE

/-- The copy a sample follows: the chosen one if it started, else the first admitted one (R417). -/
def Sample.track (x : Sample) : Option Track :=
  match x.chosen with
  | some k => if k.txStart.isSome then some k else x.first
  | none => x.first

/-- A sample of Table 16.3, completed `now` ns after the frame's timestamp. -/
def sampleBytes (seq now : Nat) (v : Frame) (x : Sample) : List Byte :=
  let cap := min 128 v.bytes.length
  let k := x.track
  let outcome := match k with | some k => k.outcome | none => 4
  let reason := match k with | some k => k.reason | none => x.reason
  let end_ := ((k.bind Track.end_).or x.over_).getD now
  let times := [x.classified, x.flow, x.stored, k.bind Track.released, k.bind Track.head, k.bind Track.txStart, some end_]
  leBytes 4 seq
    ++ [byte x.sampler, byte v.port, byte (match k with | some k => k.port | none => 0xFF),
        byte (v.cls + (match k with | some k => k.cls | none => 0) * 8 + v.slot.val * 64)]
    ++ leBytes 2 v.bytes.length ++ leBytes 2 cap ++ leBytes 4 (v.tail.getD 0x7FFFFFF)
    ++ leBytes 2 (match k with | some k => k.queue | none => 0xFFFF)
    ++ [byte outcome, byte (if outcome = 4 then reason else 0)] ++ leBytes 2 v.iseq.toNat ++ leBytes 2 v.oseq.toNat
    ++ leBytes 2 (match v.row with | some r => r | none => 0x8000) ++ leBytes 6 0 ++ leBytes 8 v.tIn
    ++ (times.map fun o => leBytes 4 (sampleTime o)).flatten ++ leBytes 60 0 ++ slice v.bytes 0 128

def samplerIdx (k : Nat) : Nat := 0xE100 + k

/-- Is the sample discarded by its sampler's filters (R417)? -/
def Sample.filtered (x : Sample) : Bool :=
  let outcome := match x.track with | some k => k.outcome | none => 4
  (x.egress != 0xFF && !x.toPort) || (x.mode == 2 && (outcome == 0 || outcome == 3))

def State.sampler (s : State) (k : Nat) : Sampler := tget s.split.samplers k {}
def State.setSampler (s : State) (k : Nat) (x : Sampler) : State :=
  { s with split.samplers := tput s.split.samplers k x }

/-- The sample of a frame whose last copy has ended is filtered, stored or lost (R417, R418). -/
def State.sampleDone (s : State) (v : Frame) : State :=
  match v.sample with
  | none => s
  | some x =>
    if x.filtered then
      let k := s.sampler x.sampler
      let s := s.setSampler x.sampler { k with tokens := min (k.tokens + 1) (s.num (samplerIdx x.sampler) 9) }
      (s.count (Num.sampFiltered x.sampler)).raise 0x1C4 2 (capture [(4, s.split.seq.toNat - 1)])
    else
      let q := s.split.seq
      let s := { s with split.seq := q + 1 }.count Num.samplesDone
      if s.split.log.length < 4096 then { s with split.log := s.split.log ++ [sampleBytes q.toNat (s.after v) v x] }
      else (s.count Num.samplesLost).raise 0x1C4 1 (capture [(4, q.toNat)])

/-! ### Tails (05 Table 5.5) and the latency sample (06 R162) -/

/-- Field [lo+w-1:lo] of a word, and the word with that field set. -/
def fld {n : Nat} (x : BitVec n) (lo w : Nat) : Nat := bits x.toNat lo w
def setFld {n : Nat} (x : BitVec n) (lo w v : Nat) : BitVec n := BitVec.ofNat n (setBits x.toNat lo w v)

/-- The pending hardware admission that holds a provisional tail for index `t` (R125). -/
def State.patOfTail (s : State) (t : Nat) : Option Pat := (s.flow.pat.find? fun e => e.2.tail == some t).map Prod.snd

/-- The settled value of a tail: the provisional one while its insert is pending. -/
def State.tailVal (s : State) (t : Nat) : BitVec 512 :=
  match s.patOfTail t with
  | some e => e.value
  | none => tget s.flow.tails t 0

def State.setTail (s : State) (t : Nat) (v : BitVec 512) : State :=
  if (s.patOfTail t).isSome then
    { s with flow.pat := s.flow.pat.map fun (e : Nat × Pat) =>
      if e.2.tail = some t then (e.1, { e.2 with value := v }) else e }
  else { s with flow.tails := tset 0 s.flow.tails t v }

/-- Does a record, or a pending hardware admission, own the tail (R116, R129)? -/
def State.tailLive (s : State) (t : Nat) : Bool :=
  bit (tget s.flow.backmap t 0).toNat 31 || (s.patOfTail t).isSome

/-- One latency sample into a tail; LAT_MIN and LAT_MAX both 0 mean that none was taken yet. -/
def addLatency (v : BitVec 512) (n : Nat) : BitVec 512 :=
  let m := min n (2 ^ 24 - 1)
  let first := fld v 173 24 == 0 && fld v 149 24 == 0
  let v := setFld v 109 40 (fld v 109 40 + n)
  let v := setFld v 173 24 (if first then m else min (fld v 173 24) m)
  setFld v 149 24 (max (fld v 149 24) m)

/-- Does a frame's update wait on the tail? Its line is not evicted then (06 R164). -/
def State.pendingOn (s : State) (t : Nat) : Bool := s.flow.deltas.any fun d => d.loc == .tail t

/-- Bring a tail into the tail cache or find it there: whether it hit. A tail that enters starts with PROMO 0; the least
recently used line without a pending update leaves a full set, and a set all of whose lines have one takes none (log
entry 36). -/
def State.touchTail (s : State) (t : Nat) (dirty : Bool) : Bool × State :=
  let i := t % 16384
  let l := tget s.flow.tailCache i []
  match l.find? fun c => c.tail == t with
  | some c =>
    let rest := l.filter fun (c : CacheLine) => c.tail != t
    let line : CacheLine := { tail := t, dirty := c.dirty || dirty }
    (true, { s with flow.tailCache := tset [] s.flow.tailCache i (line :: rest) })
  | none =>
    let evict := (l.reverse.find? fun c => !s.pendingOn c.tail).map CacheLine.tail
    if l.length ≥ 16 && evict.isNone then (false, s) else
    let l := if l.length ≥ 16 then l.filter fun c => some c.tail != evict else l
    let s := { s with flow.tailCache := tset [] s.flow.tailCache i ({ tail := t, dirty } :: l) }
    (false, s.setTail t (setFld (s.tailVal t) 87 6 0))

/-- A sample is an update of the tail: made in the tail cache, the tail read into it first (05 R119). -/
def State.sampleTail (s : State) (t n : Nat) : State :=
  let s := (s.touchTail t true).2
  (s.setTail t (addLatency (s.tailVal t) n)).count Num.latencySamples

/-- The sample reaches the tail once it is known and the frame's update stands; a record deleted since the frame met it
discards it, even when its index has been drawn again. -/
def State.latencySettle (s : State) (f : Nat) : State :=
  match s.frame f with
  | none => s
  | some v =>
    match v.tail, v.latVal with
    | some t, some n =>
      if v.latency && v.settled then
        let s := s.setFrame f { v with latency := false }
        if s.tailLive t && !v.tailGone then s.sampleTail t n
        else s.count Num.lateUpdates
      else s
    | _, _ => s

/-- The sample of a frame whose residence ends now: what is known of it already; the first bit of the copy that ran ahead and
proved no false start; else this instant (R162). -/
def State.residence (s : State) (v : Frame) : Nat :=
  match v.latVal, v.aheadTx, v.falseStart with
  | some n, _, _ => n
  | none, some n, none => n
  | none, _, _ => s.after v

/-- The moment that ends a frame's residence: the first of R162 to come counts. -/
def State.latencyMark (s : State) (f : Nat) : State :=
  (s.onFrame f fun v => { v with latVal := some (s.residence v) }).latencySettle f

/-- A frame none of whose copies lives any more: its sample completes, with its last byte at the earliest, its version count
falls, and the frame goes once its last byte has arrived and its verdict has come (03 R74, 07 R186, 16 R417). -/
def State.frameGone (s : State) (f : Nat) : State :=
  let s := s.latencyMark f
  match s.frame f with
  | none => s
  | some v =>
    if v.stage == .gone then s else
    let whole := v.endAt.isSome
    let s := (if whole then s.sampleDone v else s).releaseSlot v.slot
    if whole && (v.verdictIn || !v.ahead) then s.dropFrame f
    else s.setFrame f { v with
      stage := .gone, sample := if whole then none else v.sample.map fun x => { x with over_ := some (s.after v) } }

end Sys2Proof.Machine
end

