-- ==== Sys2Proof/Machine/Parser.lean ====
section
/-! DEFINITION. The parser: tags, redundancy headers, IP, transport and tunnel layers of a frame, its exceptions, and the
512-bit classification key (03 R64 to R68; 09 R251). -/
namespace Sys2Proof.Machine

/-! ### What the parser is told (03 Table 3.9) -/

/-- The dictionary values that steer parsing. -/
structure ParseCfg where
  vxlanPort : Nat
  vxlan : Bool
  gre : Bool
  extLimit : Nat
  deriving DecidableEq, Repr

def State.parseCfg (s : State) : ParseCfg :=
  { vxlanPort := s.num 0x2100 1, vxlan := bit (s.num 0x2100 2) 0, gre := bit (s.num 0x2100 2) 1
    extLimit := s.num 0x2100 3 }

/-- Exception bits (R66). -/
def excHdr : Nat := 1
def excTunnel : Nat := 2
def excTags : Nat := 4
def excDepth : Nat := 8

/-! ### Ethernet headers: tags and redundancy headers (R65) -/

/-- What the tags of one Ethernet header hold. -/
structure Tags where
  count : Nat := 0
  /-- TCI of each VLAN tag, outer first -/
  tcis : List Nat := []
  vlanEnd : Nat := 12
  red : Nat := 0
  rtag : Option (Nat × Nat) := none
  hsr : Option (Nat × Nat) := none
  /-- EtherType after the tags, and the offset after it -/
  etype : Nat := 0
  pos : Nat := 0
  exc : Nat := 0
  deriving DecidableEq, Repr

def isVlan (t : Nat) : Bool := t == 0x8100 || t == 0x88A8
def isMpls (t : Nat) : Bool := t == 0x8847 || t == 0x8848

/-- Walk the tags from the type field at `off`. The fuel is the number of bytes present. -/
def walkTags (h : List Byte) : Nat → Nat → Tags → Tags
  | 0, _, g => { g with exc := excDepth }
  | n + 1, off, g =>
    if h.length < off + 2 then { g with exc := excDepth } else
    let t := beAt h off 2
    if isVlan t then
      if g.count = 8 then { g with exc := excTags }
      else if h.length < off + 4 then { g with exc := excDepth }
      else walkTags h n (off + 4)
        { g with count := g.count + 1, tcis := g.tcis ++ [beAt h (off + 2) 2], vlanEnd := off + 4 }
    else if t = 0xF1C1 then
      if h.length < off + 6 then { g with exc := excDepth }
      else walkTags h n (off + 6) { g with
        red := if g.red = 0 then 1 else g.red
        rtag := if g.rtag.isNone then some (off, beAt h (off + 4) 2) else g.rtag }
    else if t = 0x892F then
      if h.length < off + 6 then { g with exc := excDepth }
      else walkTags h n (off + 6) { g with
        red := if g.red = 0 then 2 else g.red
        hsr := if g.hsr.isNone then some (off, beAt h (off + 4) 2) else g.hsr }
    else { g with etype := t, pos := off + 2 }

/-- Walk MPLS labels to the bottom of the stack. -/
def walkLabels (h : List Byte) : Nat → Tags → Tags
  | 0, g => { g with exc := excDepth }
  | n + 1, g =>
    if g.count = 8 then { g with exc := excTags }
    else if h.length < g.pos + 4 then { g with exc := excDepth }
    else
      let bottom := bit (byteAt h (g.pos + 2)) 0
      let g := { g with count := g.count + 1, pos := g.pos + 4 }
      if bottom then g else walkLabels h n g

/-! ### IP headers (R65, R66) -/

/-- Does the ones' complement sum of a header verify? -/
def sumWords : List Byte → Nat
  | a :: b :: r => a.toNat * 256 + b.toNat + sumWords r
  | [a] => a.toNat * 256
  | [] => 0
def foldSum (n : Nat) : Nat :=
  let m := n % 65536 + n / 65536
  m % 65536 + m / 65536
def sumOk (bs : List Byte) : Bool := foldSum (sumWords bs) == 0xFFFF

/-- Does a packet that ends at `last` reach beyond the last byte before the FCS? Known once the frame has ended. -/
def reachesBeyond (total : Option Nat) (last : Nat) : Bool :=
  match total with
  | some n => decide (n < last)
  | none => false

/-- The exception of an IP header that ends beyond the bytes parsed: byte d cuts it, or the frame does, whose last byte every
length that the header may state then reaches beyond (R66). -/
def headerCut (h : List Byte) (total : Option Nat) : Nat := if total = some h.length then excHdr else excDepth

/-- An IPv4 header at `off`: the layer, the exception, and where the transport header starts. -/
def parseV4 (h : List Byte) (total : Option Nat) (off : Nat) (l : Layer) : Layer × Nat × Option Nat :=
  let l := { l with l3 := 1, l3off := off }
  let hl := byteAt h off % 16 * 4
  if h.length < off + 20 ∨ (20 ≤ hl ∧ h.length < off + hl) then (l, headerCut h total, none) else
  let tl := beAt h (off + 2) 2
  if hl < 20 ∨ !sumOk ((h.drop off).take hl) ∨ tl < hl ∨ reachesBeyond total (off + tl) then (l, excHdr, none) else
  let tos := byteAt h (off + 1)
  let ff := beAt h (off + 6) 2
  ({ l with
      ip := true, dscp := tos / 4, ecn := tos % 4, proto := byteAt h (off + 9)
      sip := beAt h (off + 12) 4, dip := beAt h (off + 16) 4
      frag := if ff % 8192 ≠ 0 then 2 else if bit ff 13 then 1 else 0 }, 0, some (off + hl))

/-- Hop-by-Hop, Routing, Fragment and Destination Options. -/
def isExt (n : Nat) : Bool := n == 0 || n == 43 || n == 44 || n == 60

/-- The extension-header walk: PROTO, FRAG, exception and where it ends. A later fragment carries no further header. -/
def walkExt (h : List Byte) : Nat → Nat → Nat → Nat → Nat × Nat × Nat × Option Nat
  | 0, nxt, pos, frag =>
    if isExt nxt then (nxt, frag, excDepth, none)
    else (nxt, frag, 0, if nxt = 50 ∨ nxt = 51 then none else some pos)
  | n + 1, nxt, pos, frag =>
    if isExt nxt then
      let size := if nxt = 44 then 8 else (byteAt h (pos + 1) + 1) * 8
      if h.length < pos + 8 ∨ h.length < pos + size then (nxt, frag, excDepth, none) else
      let w := beAt h (pos + 2) 2
      let frag := if nxt = 44 then (if w / 8 ≠ 0 then 2 else w % 2) else frag
      if frag = 2 then (byteAt h pos, 2, 0, none)
      else walkExt h n (byteAt h pos) (pos + size) frag
    else (nxt, frag, 0, if nxt = 50 ∨ nxt = 51 then none else some pos)

/-- An IPv6 header at `off`. -/
def parseV6 (h : List Byte) (total : Option Nat) (limit off : Nat) (l : Layer) : Layer × Nat × Option Nat :=
  let l := { l with l3 := 2, l3off := off }
  if h.length < off + 40 then (l, headerCut h total, none) else
  if reachesBeyond total (off + 40 + beAt h (off + 4) 2) then (l, excHdr, none) else
  let tc := beAt h off 2 / 16 % 256
  let (proto, frag, exc, pos) := walkExt h limit (byteAt h (off + 6)) (off + 40) 0
  ({ l with
      ip := true, dscp := tc / 4, ecn := tc % 4, proto, frag
      sip := beAt h (off + 8) 16, dip := beAt h (off + 24) 16 }, exc, pos)

/-- Length of the frame, FCS included, that an IP header at `off` implies (R181). -/
def impliedLen (h : List Byte) (l : Layer) : Option Nat :=
  if !l.ip then none
  else if l.l3 = 1 then some (max (l.l3off + beAt h (l.l3off + 2) 2) 60 + 4)
  else some (max (l.l3off + 40 + beAt h (l.l3off + 4) 2) 60 + 4)

/-! ### Transport and tunnels (R65) -/

/-- What a tunnel carries: an Ethernet frame or an IP packet of this EtherType. -/
inductive Carried where
  | eth | ip (etype : Nat)
  deriving DecidableEq, Repr

/-- A tunnel header found: what it carries, where, and its VNI or key. -/
abbrev Tunnel := Carried × Nat × Nat

/-- The TCP or UDP header at `pos`, or a tunnel under it. -/
def parseL4 (c : ParseCfg) (h : List Byte) (pos : Nat) (l : Layer) : Layer × Nat × Option Tunnel :=
  if l.frag = 2 then (l, 0, none)
  else if l.proto = 6 then
    if h.length < pos + 20 then (l, excDepth, none)
    else ({ l with l4off := pos, sport := beAt h pos 2, dport := beAt h (pos + 2) 2, flags := byteAt h (pos + 13) }, 0, none)
  else if l.proto = 17 then
    if h.length < pos + 8 then (l, excDepth, none) else
    let l := { l with l4off := pos, sport := beAt h pos 2, dport := beAt h (pos + 2) 2 }
    if c.vxlan && l.dport == c.vxlanPort then
      if h.length < pos + 16 then (l, excDepth, none)
      else (l, 0, some (.eth, pos + 16, beAt h (pos + 12) 3))
    else (l, 0, none)
  else if l.proto = 47 && c.gre then
    if h.length < pos + 4 then (l, excDepth, none) else
    let w := beAt h pos 2
    -- version 0, no routing
    if w % 8 ≠ 0 ∨ bit w 14 then (l, 0, none) else
    let keyAt := pos + 4 + b1 (bit w 15) * 4
    let next := keyAt + b1 (bit w 13) * 4 + b1 (bit w 12) * 4
    let key := if bit w 13 then beAt h keyAt 4 % 2 ^ 24 else 0
    let proto := beAt h (pos + 2) 2
    if proto = 0x6558 ∨ proto = 0x0800 ∨ proto = 0x86DD then
      if h.length < next then (l, excDepth, none)
      else (l, 0, some (if proto = 0x6558 then .eth else .ip proto, next, key))
    else (l, 0, none)
  else (l, 0, none)

/-- The network layer of a header whose EtherType is `etype`, at `off`. -/
def parseL3 (c : ParseCfg) (h : List Byte) (total : Option Nat) (etype off : Nat) (l : Layer) :
    Layer × Nat × Option Tunnel :=
  let go (r : Layer × Nat × Option Nat) : Layer × Nat × Option Tunnel :=
    match r with
    | (l, 0, some pos) => parseL4 c h pos l
    | (l, e, _) => (l, e, none)
  if isMpls etype then
    if h.length < off + 1 then (l, excDepth, none)
    else if byteAt h off / 16 = 4 then go (parseV4 h total off l)
    else if byteAt h off / 16 = 6 then go (parseV6 h total c.extLimit off l)
    else ({ l with l3 := 3 }, 0, none)
  else if etype = 0x0800 then go (parseV4 h total off l)
  else if etype = 0x86DD then go (parseV6 h total c.extLimit off l)
  else (l, 0, none)

/-- The tags of an Ethernet header at `off`, labels included. -/
def parseTags (h : List Byte) (off : Nat) : Tags :=
  let g := walkTags h h.length (off + 12) { vlanEnd := off + 12 }
  if g.exc = 0 && isMpls g.etype then walkLabels h h.length g else g

/-- One layer: an Ethernet frame or an IP packet. -/
def parseLayer (c : ParseCfg) (h : List Byte) (total : Option Nat) (what : Carried) (off tunId : Nat) :
    Layer × Nat × Option Tunnel :=
  match what with
  | .ip etype => parseL3 c h total etype off { etype, tunId }
  | .eth =>
    if h.length < off + 14 then ({ eth := true, tunId }, excDepth, none) else
    let g := parseTags h off
    let l : Layer := { eth := true, etype := g.etype, tunId }
    if g.exc ≠ 0 then (l, g.exc, none) else parseL3 c h total g.etype g.pos l

/-- The layers inside tunnels: at most two; a third tunnel header stops parsing. -/
def parseInner (c : ParseCfg) (h : List Byte) (total : Option Nat) : Nat → Option Tunnel → List Layer × Nat
  | _, none => ([], 0)
  | 0, some _ => ([], excTunnel)
  | n + 1, some (what, off, id) =>
    let (l, exc, next) := parseLayer c h total what off id
    let (ls, e) := parseInner c h total n next
    (l :: ls, exc + e)

/-! ### The PRP trailer (09 R251) -/

/-- The LSDU size of a frame of `len` bytes without the FCS whose tags take `vlans` VLAN tags: from the first byte after
the source address, VLAN tags excluded, to the end of the trailer. -/
def lsduSize (len vlans : Nat) : Nat := len - 12 - 4 * vlans

/-- The redundancy control trailer at the end of a frame of which `body` excludes the FCS: number and LAN. -/
def prpTrailer (body : List Byte) (vlans : Nat) : Option (Nat × Nat) :=
  let n := body.length
  let t := slice body (n - 6) 6
  if n < 20 then none
  else if beAt t 4 2 = 0x88FB ∧ beAt t 2 2 % 4096 = lsduSize n vlans % 4096 then some (beAt t 0 2, beAt t 2 2 / 4096)
  else none

/-- Does an HSR tag at `off` agree in its LSDU size with a frame of `len` bytes without the FCS: from byte 2 of the tag to the
end of the payload? -/
def hsrAgrees (bs : List Byte) (len off : Nat) : Bool := beAt bs (off + 2) 2 % 4096 == (len - off - 2) % 4096

/-! ### The whole parse -/

/-- Parse the first bytes `h` of a frame; `body` is all of it before the FCS once it has ended; `prp`: the port is a LAN A
or LAN B port (R64). -/
def parseFrame (c : ParseCfg) (h : List Byte) (body : Option (List Byte)) (prp : Bool) : Parsed :=
  let total := body.map List.length
  let g := parseTags h 0
  let (outer, exc, next) := parseLayer c h total .eth 0 0
  let (inner, e) := parseInner c h total 2 next
  let vlan (i : Nat) := g.tcis.getD i 0
  let trailer := match body with
    | some b => if prp then prpTrailer b g.tcis.length else none
    | none => none
  { exc := exc + e, tags := g.count, tagged := !g.tcis.isEmpty
    pcp := vlan 0 / 8192, dei := vlan 0 / 4096 % 2, vid := vlan 0 % 4096, vid2 := vlan 1 % 4096
    vlans := g.tcis.length, vlanEnd := g.vlanEnd
    dmac := beAt h 0 6, smac := beAt h 6 6
    red := if g.red = 0 then (if trailer.isSome then 3 else 0) else g.red
    rtag := g.rtag, hsr := g.hsr, prp := trailer
    outer, inner, implied := impliedLen h outer }

/-- The layer that supplies ETYPE to TCP_FLAGS (R68), with its number: outer, or the innermost recognised. -/
def Parsed.layer (p : Parsed) (innermost : Bool) : Nat × Layer :=
  match innermost, p.inner.getLast? with
  | true, some l => (p.inner.length, l)
  | _, _ => (0, p.outer)

/-- The classification key (Table 3.3). -/
def classKey (port : Nat) (p : Parsed) (innermost : Bool) (vid zone : Nat) : BitVec 512 :=
  let (n, l) := p.layer innermost
  let fields : List (Nat × Nat × Nat) := [
    (506, 6, port), (504, 2, n), (502, 2, p.inner.length), (498, 4, p.tags), (495, 3, p.pcp), (494, 1, p.dei),
    (482, 12, vid), (470, 12, p.vid2), (422, 48, p.dmac), (374, 48, p.smac), (358, 16, l.etype), (230, 128, l.sip),
    (102, 128, l.dip), (94, 8, l.proto), (88, 6, l.dscp), (86, 2, l.ecn), (84, 2, l.l3), (82, 2, l.frag),
    (66, 16, l.sport), (50, 16, l.dport), (42, 8, l.flags), (18, 24, l.tunId), (16, 2, p.red), (12, 4, p.exc),
    (4, 8, zone)]
  BitVec.ofNat 512 (fields.foldl (fun k f => k + f.2.2 % 2 ^ f.2.1 * 2 ^ f.1) 0)

end Sys2Proof.Machine
end

