-- ==== Sys2Proof/Machine/Transmit.lean ====
section
/-! DEFINITION. What the transmit stage sends for a copy: restored destinations, translation, DSCP and L2 rewrites with
their checksums, R-TAGs, PRP trailers and HSR tags, mirror copies, and the transmit length (06 R145, R157; 07 R199;
08 R207; 09 R241, R250 to R252). -/
namespace Sys2Proof.Machine

/-! ### Checksums (06 R145: RFC 1624) -/

/-- Ones' complement sum of words folded to 16 bits. -/
def fold16 (n : Nat) : Nat := foldSum (foldSum n)

/-- An incremental checksum update for bytes that changed from `old` to `new`, of equal length and at an even place. -/
def csumUpdate (hc : Nat) (old new : List Byte) : Nat :=
  let words := (old.length + 1) / 2
  let s := (0xFFFF - hc % 65536) + (words * 0xFFFF - sumWords old) + sumWords new
  0xFFFF - fold16 s

/-- The IPv4 header at `off` with its checksum computed afresh. -/
def fixV4 (bs : List Byte) (off : Nat) : List Byte :=
  let hl := byteAt bs off % 16 * 4
  let bs := splice bs (off + 10) [0, 0]
  splice bs (off + 10) (beBytes 2 (0xFFFF - fold16 (sumWords ((bs.drop off).take hl))))

/-! ### Header changes of one layer -/

/-- New values for fields of the keyed layer. -/
structure Rewrite where
  sip : Option Nat := none
  dip : Option Nat := none
  sport : Option Nat := none
  dport : Option Nat := none
  dscp : Option Nat := none
  deriving DecidableEq, Repr

/-- A field of `n` bytes at `off` replaced, with the TCP or UDP checksum at `ck` updated when there is one. -/
def putField (bs : List Byte) (off n : Nat) (v : Option Nat) (ck : Option Nat) : List Byte :=
  match v with
  | none => bs
  | some x =>
    let old := slice bs off n
    let new := beBytes n x
    let bs := splice bs off new
    match ck with
    | none => bs
    | some c => splice bs c (beBytes 2 (csumUpdate (beAt bs c 2) old new))

/-- Where the transport checksum of a layer stands, when it is one to update: a zero UDP checksum over IPv4 stays zero. -/
def checksumAt (bs : List Byte) (l : Layer) : Option Nat :=
  if l.l4off = 0 then none
  else if l.proto = 6 then some (l.l4off + 16)
  else if l.proto = 17 then
    if l.l3 = 1 && beAt bs (l.l4off + 6) 2 == 0 then none else some (l.l4off + 6)
  else none

/-- A UDP checksum that came out zero is sent as 0xFFFF. -/
def udpNonZero (bs : List Byte) (l : Layer) (ck : Option Nat) : List Byte :=
  match ck with
  | some c => if l.proto = 17 && beAt bs c 2 == 0 then splice bs c [0xFF, 0xFF] else bs
  | none => bs

/-- The layer rewritten in place. -/
def rewriteLayer (bs : List Byte) (l : Layer) (r : Rewrite) : List Byte :=
  if !l.ip then bs else
  let ck := checksumAt bs l
  let n := if l.l3 = 1 then 4 else 16
  let src := l.l3off + (if l.l3 = 1 then 12 else 8)
  let bs := putField bs src n r.sip ck
  let bs := putField bs (src + n) n r.dip ck
  let bs := if l.l4off = 0 then bs else
    putField (putField bs l.l4off 2 r.sport ck) (l.l4off + 2) 2 r.dport ck
  let bs := udpNonZero bs l ck
  let bs := match r.dscp with
    | none => bs
    | some d =>
      if l.l3 = 1 then splice bs (l.l3off + 1) [byte (d * 4 + byteAt bs (l.l3off + 1) % 4)]
      else
        let w := beAt bs l.l3off 2
        splice bs l.l3off (beBytes 2 (w / 4096 * 4096 + d * 64 + w % 64))
  if l.l3 = 1 then fixV4 bs l.l3off else bs

/-- The non-zero UDP checksum of an enclosing tunnel, updated for what changed inside it. -/
def fixOuterUdp (old new : List Byte) (l : Layer) : List Byte :=
  if l.ip && l.proto == 17 && l.l4off != 0 && beAt old (l.l4off + 6) 2 != 0 then
    let c := l.l4off + 6
    let x := csumUpdate (beAt new c 2) (old.drop (c + 2)) (new.drop (c + 2))
    splice new c (beBytes 2 (if x = 0 then 0xFFFF else x))
  else new

/-- The flow key's layer rewritten, and the tunnels around it kept right. -/
def rewriteKeyed (bs : List Byte) (p : Parsed) (innermost : Bool) (r : Rewrite) : List Byte :=
  let (n, l) := p.layer innermost
  let around := ((p.outer :: p.inner).take n).reverse
  around.foldl (fun new o => fixOuterUdp bs new o) (rewriteLayer bs l r)

/-! ### Redundancy modes of the ports (09 R249) -/

def State.redMode (s : State) (p : Nat) : Nat := if p < 32 then s.num (0x7100 + p) 1 else 0
def State.redPartner (s : State) (p : Nat) : Nat := if p < 32 then s.num (0x7100 + p) 2 else 0xFF
def isPrp (m : Nat) : Bool := m == 1 || m == 2
def isHsr (m : Nat) : Bool := m == 3
/-- Do two ports belong to one pair, or are they one port? -/
def State.samePair (s : State) (a b : Nat) : Bool := a == b || s.redPartner a == b

/-- The number a frame received on a redundancy port carries: of its trailer or its tag. -/
def State.receivedNumber (s : State) (v : Frame) : Option Nat :=
  if isPrp (s.redMode v.port) then v.p.prp.map Prod.fst
  else if isHsr (s.redMode v.port) then v.p.hsr.map Prod.snd
  else none

/-- Does the copy's encapsulation come from its source's proxied entry (R252)? -/
def State.proxied (s : State) (v : Frame) (port : Nat) : Bool := s.redMode v.port == 0 && s.redMode port != 0

/-- Does the copy lose the trailer or tag it arrived with? It keeps it only on the other port of its own pair. -/
def State.stripped (s : State) (v : Frame) (port : Nat) : Bool :=
  (s.receivedNumber v).isSome && !s.samePair v.port port

/-- The number the copy is encapsulated with, when it leaves on a PRP or HSR port of another pair. -/
def State.encapNumber (s : State) (v : Frame) (port : Nat) : Option Nat :=
  if s.redMode port = 0 then none
  else if s.proxied v port then v.proxyNumber.map BitVec.toNat
  else if s.samePair v.port port then none
  else s.receivedNumber v

/-! ### The stream handle (09 R238 to R241) -/

/-- MODE of the handle entry in force for a frame; mirror copies and copies to P32 have none. -/
def Frame.mode (v : Frame) : Nat := if v.handle.isSome then bits v.entry 0 2 else 0
def Frame.generates (v : Frame) : Bool := v.mode == 1 || v.mode == 3
def Frame.recovers (v : Frame) : Bool := v.mode == 2 || v.mode == 3

/-- A frame's R-TAG after the handle's MODE: overwritten, its reserved bytes sent as 0 (Table 9.2), inserted, or removed.
`vlanEnd` is where a new one goes. -/
def tagStream (mode : Nat) (bs : List Byte) (rtag : Option Nat) (vlanEnd number : Nat) : List Byte :=
  let tag := [0xF1, 0xC1, 0, 0] ++ beBytes 2 number
  match mode, rtag with
  | 0, _ => bs
  | 2, some o => bs.take o ++ bs.drop (o + 6)
  | 2, none => bs
  | _, some o => splice bs o tag
  | _, none => bs.take vlanEnd ++ tag ++ bs.drop vlanEnd

/-- An HSR tag for a frame whose payload ends at the end of `bs`. -/
def hsrInsert (bs : List Byte) (vlanEnd number : Nat) : List Byte :=
  bs.take vlanEnd ++ [0x89, 0x2F] ++ beBytes 2 ((bs.length - vlanEnd + 4) % 4096) ++ beBytes 2 number ++ bs.drop vlanEnd

/-- A PRP trailer for LAN A (mode 1) or LAN B (mode 2). -/
def rctAppend (bs : List Byte) (vlans mode number : Nat) : List Byte :=
  bs ++ beBytes 2 number ++ beBytes 2 ((0xA + (mode - 1)) * 4096 + lsduSize (bs.length + 6) vlans % 4096) ++ [0x88, 0xFB]

/-- Bytes padded with zeros to a minimum frame without FCS. -/
def pad60 (bs : List Byte) : List Byte := bs ++ List.replicate (60 - bs.length) 0

/-! ### What a copy carries -/

/-- Where the outer VLAN tag stands: after the redundancy tags that precede it. -/
def outerVlan (bs : List Byte) : Nat → Nat → Nat
  | 0, o => o
  | n + 1, o => if beAt bs o 2 = 0xF1C1 ∨ beAt bs o 2 = 0x892F then outerVlan bs n (o + 6) else o

/-- L2 changes of the verdict: destination address, outer VID, DEI (06 R144). -/
def rewriteL2 (v : Frame) (bs : List Byte) : List Byte :=
  let bs := match v.dmac with | some m => splice bs 0 (beBytes 6 m) | none => bs
  if v.p.tagged then
    let o := outerVlan bs 8 12 + 2
    let tci := beAt bs o 2
    let tci := match v.vidOut with | some x => tci / 4096 * 4096 + x | none => tci
    let tci := if v.markDei then setBits tci 12 1 1 else tci
    splice bs o (beBytes 2 tci)
  else bs

/-- Bytes of a frame after every header change of its verdict (06 R145, R157). -/
def rewritten (v : Frame) (bs : List Byte) : List Byte :=
  let r : Rewrite := {
    sip := v.natSrc.map Prod.fst, sport := v.natSrc.bind Prod.snd
    dip := v.resolved.map Resolved.dip, dport := v.resolved.bind Resolved.dport, dscp := v.dscp }
  let bs := if r = {} then bs else rewriteKeyed bs v.p v.inner r
  rewriteL2 v bs

/-- Does the copy keep the trailer or tag it arrived with? -/
def State.keeps (s : State) (v : Frame) (port : Nat) : Bool := (s.receivedNumber v).isSome && s.samePair v.port port

/-- The body of a copy that keeps its HSR tag, at `off`, after the stream's tag: that goes behind the HSR tag (09 R251), and the
LSDU size follows the length; the path stays. -/
def keepHsr (bs : List Byte) (mode : Nat) (rtag : Option Nat) (vlanEnd off number : Nat) : List Byte :=
  let after := pad60 (tagStream mode bs rtag (max vlanEnd (off + 6)) number)
  let w := beAt bs (off + 2) 2
  if after.length = bs.length then after
  else splice after (off + 2) (beBytes 2 (w / 4096 * 4096 + (w % 4096 + 4096 + after.length - bs.length) % 4096))

/-- The body of a copy that keeps its PRP trailer, which stays last, after any padding, with its number and LAN (09 R251). -/
def keepPrp (bs : List Byte) (mode : Nat) (rtag : Option Nat) (vlanEnd vlans number : Nat) (rct : Nat × Nat) : List Byte :=
  if mode = 0 then bs else rctAppend (pad60 (tagStream mode (bs.take (bs.length - 6)) rtag vlanEnd number)) vlans (rct.2 - 9) rct.1

/-- Bytes before the FCS of an ordinary copy to `port` whose stream number is `number`; `bare`: without a trailer of the port. -/
def State.copyBody (s : State) (v : Frame) (port number : Nat) (bare : Bool) : List Byte :=
  let bs := rewritten v v.body
  let rm := s.redMode v.port
  -- the received tag or trailer
  let cutHsr := s.stripped v port && isHsr rm
  let hsrOff := (v.p.hsr.map Prod.fst).getD 0
  let bs := if cutHsr then bs.take hsrOff ++ bs.drop (hsrOff + 6)
    else if s.stripped v port && isPrp rm then bs.take (bs.length - 6) else bs
  let rtag := v.p.rtag.map fun o => if cutHsr && decide (hsrOff < o.1) then o.1 - 6 else o.1
  -- where the last VLAN tag ends, once what stood before it is gone
  let vlanEnd := v.p.vlanEnd - (if cutHsr && decide (hsrOff < v.p.vlanEnd) then 6 else 0)
  match if s.keeps v port then v.p.hsr else none, if s.keeps v port then v.p.prp else none with
  | some o, _ => keepHsr bs v.mode rtag vlanEnd o.1 number
  | none, some r => keepPrp bs v.mode rtag vlanEnd v.p.vlans number r
  | none, none =>
  let bs := pad60 (tagStream v.mode bs rtag vlanEnd number)
  let vlanEnd := vlanEnd - (if v.mode == 2 && rtag.any (fun o => decide (o < vlanEnd)) then 6 else 0)
  match if bare then none else s.encapNumber v port with
  | none => bs
  | some n => if isHsr (s.redMode port) then hsrInsert bs vlanEnd n else rctAppend bs v.p.vlans (s.redMode port) n

/-- Bytes before the FCS of a mirror copy: as received, truncated and tagged as its session said when it was judged (07 R198,
R199). -/
def mirrorBody (v : Frame) (c : Copy) : List Byte :=
  let bs := if c.trunc = 0 then v.body else v.body.take c.trunc
  if c.tag = 0 then bs else bs.take 12 ++ beBytes 4 c.tag ++ bs.drop 12

/-- Bytes before the FCS of a copy; copies to P32 carry the frame as received (09 R238). -/
def State.bodyOf (s : State) (v : Frame) (c : Copy) : List Byte :=
  if c.mirror.isSome then mirrorBody v c
  else if c.port = hostPort then v.body
  else s.copyBody v c.port ((v.number.getD 0).toNat) c.bare

/-- Bytes that a stream's tag adds to or takes from an ordinary copy, and those of a trailer or tag it loses; the sum is
padded to a minimum frame. -/
def State.copyDelta (s : State) (v : Frame) (port : Nat) : Int :=
  let stream : Int := match v.mode, v.p.rtag with
    | 0, _ => 0
    | 2, some _ => -6
    | 2, none => 0
    | _, some _ => 0
    | _, none => 6
  stream + (if s.stripped v port then -6 else 0)

/-- Bytes of the trailer or tag that an ordinary copy gets after any padding (09 R251). -/
def State.encapLen (s : State) (v : Frame) (port : Nat) : Nat :=
  if s.redMode port ≠ 0 && (s.proxied v port || (!s.samePair v.port port && (s.receivedNumber v).isSome)) then 6 else 0

/-- The transmit length L of copy `c` of a frame of `n` bytes: of all that the transmit stage will send (08 R207). -/
def State.copyLen (s : State) (v : Frame) (c : Copy) (n : Nat) : Nat :=
  if c.mirror.isSome then
    (if c.trunc = 0 then n else min (n - 4) c.trunc + 4) + (if c.tag = 0 then 0 else 4)
  else if c.port = hostPort then n
  else max 64 ((n : Int) + s.copyDelta v c.port).toNat + (if c.bare then 0 else s.encapLen v c.port)

/-- A body with its FCS: correct, or stomped (07 R195). -/
def withFcs (bs : List Byte) (stomped : Bool) : List Byte :=
  bs ++ leBytes 4 (if stomped then crc32 bs ^^^ 0xFFFFFFFF else crc32 bs)

end Sys2Proof.Machine
end

