-- ==== Sys2Proof/Machine/Buffer.lean ====
section
/-! DEFINITION. The buffer pool and the switch core: cells and tiles, charges, copies and their ends, announcements and the
photo-finish, and the entry of copies into their queues (07 R173 to R200; 08 R204 to R209). -/
namespace Sys2Proof.Machine

/-! ### Cells and tiles (07 R173 to R178) -/

def allOnes : BitVec 64 := ~~~0

/-- The head of the free list, or of the partial list when the free list is empty or being rebuilt (R176, R178). -/
def Buffer.draw (b : Buffer) : Option (Nat × Buffer) :=
  match if b.rebuilding then none else b.free.pop with
  | some (t, r) => some (t, { b with free := r })
  | none =>
    match b.partial_ with
    | t :: r => some (t, { b with partial_ := r })
    | [] => none

def Buffer.hand (b : Buffer) (sl : Nat) : List Nat := tget b.hands sl []
def Buffer.setHand (b : Buffer) (sl : Nat) (h : List Nat) : Buffer := { b with hands := tset [] b.hands sl h }

/-- Draw until the hand holds four tiles (R176). -/
def Buffer.fillHand (sl : Nat) : Nat → Buffer → Buffer
  | 0, b => b
  | n + 1, b =>
    if (b.hand sl).length < 4 then
      match b.draw with
      | some (t, b) => Buffer.fillHand sl n (b.setHand sl (b.hand sl ++ [t]))
      | none => b
    else b

/-- Every hand draws up to four tiles, in ascending slice order (R175, R176); a slice in OFF holds none. -/
def State.fillHands (s : State) : State :=
  { s with buf := (List.range 4).foldl (fun b sl => if (s.slice sl).state == .off then b else b.fillHand sl 4) s.buf }

/-- The lowest free cell of the first hand tile that has one; a tile that this fills leaves the hand, and the next one is
drawn (R174, R176). -/
def Buffer.takeCell (sl : Nat) : Nat → Buffer → Option Nat × Buffer
  | 0, b => (none, b)
  | n + 1, b =>
    let b := b.fillHand sl 4
    match b.hand sl with
    | [] => (none, b)
    | t :: rest =>
      let m := tget b.tiles t 0
      match firstFrom 0 64 fun i => !m.getLsbD i with
      | none => Buffer.takeCell sl n (b.setHand sl rest)
      | some i =>
        let cells := b.cells + 1
        let m := m ||| BitVec.ofNat 64 (2 ^ i)
        let b := { b with
          tiles := tset 0 b.tiles t m
          cells, cellsHigh := BitVec.ofNat 32 (max b.cellsHigh.toNat cells) }
        (some (t * 64 + i), if m = allOnes then (b.setHand sl rest).fillHand sl 4 else b)

/-- `n` cells for a frame of slice `sl`, in chain order (R179: there is always one). -/
def Buffer.takeCells (sl : Nat) : Nat → Buffer → List Nat × Buffer
  | 0, b => ([], b)
  | n + 1, b =>
    match b.takeCell sl 6 with
    | (some c, b) =>
      let (cs, b) := Buffer.takeCells sl n b
      (c :: cs, b)
    | (none, b) => ([], b)

def Buffer.inHand (b : Buffer) (t : Nat) : Bool := b.hands.any fun e => e.2.contains t

/-- A cell is freed; a tile outside every hand moves between the lists (R175). -/
def Buffer.freeCell (b : Buffer) (c : Nat) : Buffer :=
  let t := c / 64
  let m := tget b.tiles t 0
  let m' := m &&& ~~~ (BitVec.ofNat 64 (2 ^ (c % 64)))
  let b1 := { b with tiles := tset 0 b.tiles t m', cells := b.cells - 1 }
  if b.inHand t then b1
  else if m' = 0 then { b1 with partial_ := b1.partial_.filter (· != t), free := b1.free.push t }
  else if m = allOnes then { b1 with partial_ := b1.partial_ ++ [t] }
  else b1

def Buffer.freeCells (b : Buffer) (cs : List Nat) : Buffer := cs.foldl Buffer.freeCell b

/-- A slice that enters OFF releases its hand (R177). -/
def Buffer.releaseHand (b : Buffer) (sl : Nat) : Buffer :=
  (b.hand sl).foldl (fun b t =>
    let m := tget b.tiles t 0
    if m = 0 then { b with free := b.free.push t }
    else if m = allOnes then b
    else { b with partial_ := b.partial_ ++ [t] }) (b.setHand sl [])

/-- `n` cells for a frame of slice `sl`; what its tiles leave, the other hands may draw. -/
def State.takeCells (s : State) (sl n : Nat) : List Nat × State :=
  let (cs, b) := s.buf.takeCells sl n
  (cs, { s with buf := b }.fillHands)

/-- Cells freed; a tile that joins a list may be drawn at once. -/
def State.freeCells (s : State) (cs : List Nat) : State := { s with buf := s.buf.freeCells cs }.fillHands

/-- A number and its complement in the two halves of a 32-bit field (Table 7.1). -/
def checkedHalf (w : Nat) : Bool := bits w 16 16 == 0xFFFF - bits w 0 16

/-- The link word of a free tile (Table 7.1): the tile after it in the list, or END. -/
def linkWord (l : List Nat) (tile : Nat) : Nat :=
  let half := match (l.dropWhile (· != tile)).tail with
    | n :: _ => n
    | [] => 2 ^ 12
  half + (0xFFFF - half) * 2 ^ 16 + half * 2 ^ 32 + (0xFFFF - half) * 2 ^ 48

/-- Is a link word readable: ECC corrects it, or one of its halves passes the complement check? -/
def linkReadable (x : FreeLink) : Bool :=
  x.corrected || checkedHalf (x.word.toNat % 2 ^ 32) || checkedHalf (x.word.toNat / 2 ^ 32)

/-- The tiles that the bitmaps and the tile state table show free. -/
def Buffer.freeTiles (b : Buffer) : List Nat := below 4096 fun i => tget b.tiles i 0 == 0 && !b.inHand i

/-- FREE_LIST_REBUILD: a link word of the free list that cannot be read stops draws from the list; at the next command of the
row the list stands rebuilt from the bitmaps and the state of the tiles, and hands draw from it again. Nothing else changes
(R178; log entry 82). -/
def execFreeListRebuild (t : Nat) (tile : FreeLink) (s : State) : Result :=
  s.run t fun s =>
    if s.buf.rebuilding then
      let s := { s with buf := { s.buf with free := s.buf.freeTiles.foldl Runs.push [], rebuilding := false } }.fillHands
      (s.count Num.freeListRebuilds).raise 0x1A0 1 (capture [(2, s.buf.rebuildTile)])
    else if !linkReadable tile && s.buf.free.any fun r => decide (r.1 ≤ tile.tile.val) && decide (tile.tile.val < r.1 + r.2) then
      { s with buf := { s.buf with rebuilding := true, rebuildTile := tile.tile.val } }.memEvent 0 true false (capture [(4, tile.tile.val * 64)])
    else s

/-! ### Charges (07 R180 to R183) -/

def poolCells : Nat := 261120

/-- RESERVE and LIMIT of a queue, RESERVE of a port (Table 7.2). -/
def State.queueReserve (s : State) (q : Nat) : Nat := s.blk 0x5002 0 (8 * q) 4 % 2 ^ 18
def State.queueLimit (s : State) (q : Nat) : Nat := bits (s.blk 0x5002 0 (8 * q) 8) 20 19
def State.portReserve (s : State) (p : Nat) : Nat := s.blk 0x5001 0 (8 * p) 4 % 2 ^ 18

def State.charge (s : State) (q : Nat) : Charge := tget s.buf.charges q {}
def State.setCharge (s : State) (q : Nat) (c : Charge) : State := { s with buf.charges := tset {} s.buf.charges q c }

/-- Free shared cells F. -/
def Buffer.freeShared (b : Buffer) : Nat := if b.u < b.size then b.size - b.u else 0

/-- Reasons of a refusal, in the order of Table 7.7. -/
def refQueue : Nat := 0
def refThreshold : Nat := 1
def refPool : Nat := 2
def refDown : Nat := 3
def refDescriptors : Nat := 4

/-- Judge a copy of `n` cells for queue `q` of port `p` (R181): a reason of refusal, or the state with its charge. -/
def State.admitCell (s : State) (q p n : Nat) : Nat ⊕ State :=
  let c := s.charge q
  if s.buf.descriptors ≥ 524288 then .inl refDescriptors
  else if !s.portUp p then .inl refDown
  else if c.q + n > s.queueLimit q then .inl refQueue
  else if s.buf.k + n > poolCells then .inl refPool
  else
    let a := min n (s.queueReserve q - (c.q - c.z - c.y))
    let pz := tget s.buf.portZ p 0
    let b := min (n - a) (s.portReserve p - pz)
    let sh := n - a - b
    let f := s.buf.freeShared
    if sh > 0 ∧ sh > f then .inl refPool
    else if sh > 0 ∧ 16 * (c.y + sh) > s.buf.a.toNat * f then .inl refThreshold
    else
      let s := s.setCharge q { q := c.q + n, z := c.z + b, y := c.y + sh }
      .inr { s with buf := { s.buf with
        portZ := tset 0 s.buf.portZ p (pz + b), u := s.buf.u + sh, k := s.buf.k + n } }

/-- The instant at which a shortfall ends is counted (R183). -/
def State.shortfallEnd (s : State) : State :=
  if s.buf.shortfall && decide (s.buf.u ≤ s.buf.size) then
    ({ s with buf.shortfall := false }.count Num.shortfallsEnded).raise 0x1A1 2 (capture [(4, s.buf.shortBy.toNat)])
  else s

/-- `m` cells leave the charge of queue `q` of port `p`. -/
def State.uncharge (s : State) (q p m : Nat) : State :=
  let c := s.charge q
  let sh := min m c.y
  let b := min (m - sh) c.z
  let s := s.setCharge q { q := c.q - m, z := c.z - b, y := c.y - sh }
  let s := { s with buf := { s.buf with
    portZ := tset 0 s.buf.portZ p (tget s.buf.portZ p 0 - b), u := s.buf.u - sh, k := s.buf.k - m } }
  s.shortfallEnd

/-- A mirror copy that is refused or dropped counts against its session (R200). -/
def State.mirrorLost (s : State) (mirror : Option Nat) : State :=
  match mirror with
  | some m => (s.count (Num.mirrorDropped m)).raise 0x1A2 1 (capture [(1, m)])
  | none => s

/-- A copy refused: counted on its port by reason and on its queue, and against its mirror session (R185, R200). -/
def State.refuse (s : State) (q p r : Nat) (mirror : Option Nat) : State :=
  let s := if r = refThreshold then { s with buf.thresholdRefused := true } else s
  let s := (s.count (Num.copiesRefused p r)).countW (Num.queueRefused q)
  (s.raise 0x19E (2 ^ r) (capture [(2, q)])).mirrorLost mirror

/-! ### Entry into the queues (08 R205, R208) -/

/-- The queue of a copy. -/
def State.queueOf (s : State) (v : Frame) (p c : Nat) : Nat :=
  let (base, n) := s.queueSet p c
  base + crc32cSeed (s.num 0x6000 1) v.hashBytes % 2 ^ n

/-- A copy enters its queue; a queue that was empty joins the round with one quantum. -/
def State.enqueue (s : State) (c : Nat) : State :=
  match s.copy c with
  | none => s
  | some k =>
    let q := s.queue k.queue
    let s := s.setCopy c { k with queued := true }
    if (s.round k.port k.cls).contains k.queue then s.setQueue k.queue { q with fifo := q.fifo ++ [c] }
    else
      (s.setQueue k.queue { fifo := q.fifo ++ [c], deficit := s.quantum k.queue }).setRound k.port k.cls
        (s.round k.port k.cls ++ [k.queue])

/-- Take a copy out of its queue without any charge (R209). -/
def State.dequeue (s : State) (c : Nat) (k : Copy) : State :=
  let q := s.queue k.queue
  let fifo := q.fifo.filter (· != c)
  if fifo.isEmpty then
    (s.setQueue k.queue {}).setRound k.port k.cls ((s.round k.port k.cls).filter (· != k.queue))
  else s.setQueue k.queue { q with fifo }

/-! ### The end of a copy (07 R186) -/

/-- Change what a sample keeps of one copy. -/
def Sample.onTrack (x : Sample) (c : Nat) (g : Track → Track) : Sample :=
  let on (o : Option Track) := o.map fun k => if k.copy = c then g k else k
  { x with first := on x.first, chosen := on x.chosen }

/-- The sample that follows this copy learns how it ended. -/
def State.sampleEnd (s : State) (k : Copy) (c outcome reason : Nat) : State :=
  s.onSample k.frame fun n x => x.onTrack c fun w =>
    { w with outcome, reason, released := k.releasedAt, head := k.headAt, end_ := some n }

/-- The frame loses one reference; at 0 its cells are freed in chain order and it goes. -/
def State.unref (s : State) (f : Nat) : State :=
  match s.frame f with
  | none => s
  | some v =>
    let s := s.setFrame f { v with refs := v.refs - 1 }
    if v.refs ≤ 1 then
      let s := s.freeCells v.cells
      (s.onFrame f fun v => { v with cells := [] }).frameGone f
    else s

/-- A copy ends: its charge and its descriptor are released, and its frame loses the reference. -/
def State.copyEnd (s : State) (c : Nat) (k : Copy) (outcome reason : Nat) : State :=
  let s := s.sampleEnd k c outcome reason
  let s := { s with buf := { s.buf with copies := tdel s.buf.copies c, descriptors := s.buf.descriptors - 1 } }
  if k.void then s else (s.uncharge k.queue k.port k.charge).unref k.frame

/-- A queued copy is dropped. -/
def State.dropCopy (s : State) (c : Nat) (k : Copy) (reason : Nat) : State :=
  ((s.mirrorLost k.mirror).dequeue c k).copyEnd c k 4 reason

/-- A copy that its port, being down, cannot take once it is released: a port-down drop (08 R225). -/
def State.downDrop (s : State) (c : Nat) (k : Copy) : State :=
  if k.void then s.copyEnd c k 4 9
  else ((s.count (Num.portDownDrops (roundOf k.port k.cls))).mirrorLost k.mirror).copyEnd c k 4 9

/-- Copies of a frame, in the order they were made. -/
def State.copiesOf (s : State) (f : Nat) : List Nat := (s.buf.copies.filter fun e => e.2.frame == f).map Prod.fst

/-- A copy becomes void (R187): it releases its charge and its reference, and stays in its queue as a marker. -/
def State.voidCopy (s : State) (c : Nat) : State :=
  match s.copy c with
  | none => s
  | some k =>
    if k.void then s else
    let s := (s.sampleEnd k c 4 0x0B).setCopy c { k with void := true }
    ((s.uncharge k.queue k.port k.charge).countW (Num.voidCopies k.port)).unref k.frame

/-- A copy that is not made after all leaves a void marker, and is no loss to count (06 R167, R169; log entry 96). -/
def State.retractCopy (s : State) (c : Nat) : State :=
  match s.copy c with
  | none => s
  | some k => if k.void then s else (s.setCopy c { k with void := true }).uncharge k.queue k.port k.charge

/-- The copies of a frame judged before its verdict are retracted, and the frame stands in the flow stage again, with the number
that it was announced under used. -/
def State.retract (s : State) (f : Nat) : State :=
  let s := (s.copiesOf f).foldl State.retractCopy s
  match s.frame f with
  | none => s
  | some v =>
    let s := (s.freeCells v.cells).onSample f fun _ y => { y with toPort := false, first := none, chosen := none }
    s.onFrame f fun v => { v with ahead := false, stage := .flow, numbered := false, cells := [], refs := 0 }

/-- The mirror copies of a frame that proves a false start are not made (06 R169). -/
def State.retractMirrors (s : State) (f : Nat) : State :=
  (s.copiesOf f).foldl (fun s c =>
    match s.copy c with
    | some k => if k.mirror.isSome && !k.void then (s.retractCopy c).unref f else s
    | none => s) s

/-- Is the copy in transmission, or preempted in it? -/
def State.onWire (s : State) (c : Nat) (k : Copy) : Bool :=
  let e := s.egr k.port
  e.tx.any (fun x => x.copy == c) || e.suspended.any (fun x => x.copy == c)

/-! ### The photo-finish (07 R188 to R191) -/

def State.finish (s : State) (i : Nat) : Finish := tget s.buf.finish i {}
def State.setFinish (s : State) (i : Nat) (x : Finish) : State := { s with buf.finish := tset {} s.buf.finish i x }

/-- Gap-skip event of a slice: order domain as port and class (Table 7.8). -/
def State.gapEvent (s : State) (i flag dom : Nat) : State := s.raise (0x4C + i) (2 ^ flag) [byte (dom / 8), byte (dom % 8)]

/-- Condition under which a copy released now may be cut through; supplied by the egress stage (R193). -/
abbrev CutTest := State → Frame → Copy → Bool

/-- Release one ARRIVE: its copies enter their queues, cut through where R193 allows it; a copy to a port that is down
since its judgement is dropped as a port-down drop (08 R225). -/
def State.releaseCopies (cut : CutTest) (cs : List Nat) (s : State) : State :=
  cs.foldl (fun s c =>
    match s.copy c with
    | none => s
    | some k =>
      let k := { k with releasedAt := (s.frame k.frame).map s.after }
      let s := s.setCopy c k
      if k.void then s.enqueue c
      else if !s.portUp k.port then s.downDrop c k
      else
        match s.frame k.frame with
        | none => s
        | some v =>
          let ct := cut s v k
          let s := if ct then s.countW (Num.cutThrough k.port) else s
          (s.setCopy c { k with cut := ct }).enqueue c) s

/-- Release an announcement and advance the expected number past it. -/
def State.releaseOne (cut : CutTest) (i : Nat) (a : Announce) (s : State) : State :=
  let x := s.finish i
  let s := s.setFinish i { x with
    expected := tset 0 x.expected a.dom (a.last + 1), waiting := x.waiting.filter (· != a) }
  match a.copies with
  | some cs => s.releaseCopies cut cs
  | none => s

/-- The waiting announcement of a domain with the lowest number at or above the expected one. -/
def Finish.lowest (x : Finish) (dom : Nat) : Option Announce :=
  let e := tget x.expected dom 0
  leastBy (fun a => (a.first - e).toNat) (x.waiting.filter fun a => a.dom == dom)

/-- Release the announcements of a domain that are next in number order. -/
def State.releaseNext (cut : CutTest) (i dom : Nat) : Nat → State → State
  | 0, s => s
  | n + 1, s =>
    let x := s.finish i
    match x.lowest dom with
    | some a => if a.first = tget x.expected dom 0 then State.releaseNext cut i dom n (s.releaseOne cut i a) else s
    | none => s

/-- Skip a gap (R190): the numbers passed over are counted, and what waits next is released. `why`: 0 timeout, 1 window. -/
def State.skipGap (cut : CutTest) (i dom why : Nat) (s : State) : State :=
  let x := s.finish i
  match x.lowest dom with
  | none => s
  | some a =>
    let gap := (a.first - tget x.expected dom 0).toNat
    let s := s.setFinish i { x with expected := tset 0 x.expected dom a.first }
    let s := (s.count (Num.numbersSkipped i why) gap).gapEvent i why dom
    s.releaseNext cut i dom (x.waiting.length + 1)

/-- The domain whose oldest waiting announcement arrived first. -/
def Finish.oldest (x : Finish) : Option Announce := leastBy Announce.at_ x.waiting

/-- The procedure `announce` of R190 and R191. -/
def State.announceArrive (cut : CutTest) (i : Nat) (a : Announce) (s : State) : State :=
  let x := s.finish i
  if (a.first - tget x.expected a.dom 0).toNat ≥ 32768 then
    let s := (s.count (Num.lateAnnouncements i)).gapEvent i 2 a.dom
    match a.copies with
    | none => s
    | some cs =>
      cs.foldl (fun s c =>
        match s.copy c with
        | some k => if k.void then s.copyEnd c k 4 7 else ((s.countW (Num.lateDropped k.port)).mirrorLost k.mirror).copyEnd c k 4 7
        | none => s) s
  else
    let w := x.waiting ++ [{ a with at_ := s.now, gap := s.num 0x5100 1 * nsPs }]
    let s := s.setFinish i { x with waiting := w }
    let s := s.releaseNext cut i a.dom (w.length + 1)
    let used := (s.finish i).waiting.length
    let s := s.setFinish i { s.finish i with high := BitVec.ofNat 16 (max (s.finish i).high.toNat (min used 8192)) }
    if used > 8192 then
      match (s.finish i).oldest with
      | some o => s.skipGap cut i o.dom 1
      | none => s
    else s

/-- A VOID of one number joins the range before it when that is a VOID of the same domain ending one below (R189). -/
def mergeVoid (a : Announce) : List Announce → List Announce
  | [] => [a]
  | b :: r =>
    if (r.all fun c => c.dom != a.dom) && b.dom == a.dom && b.copies.isNone && b.last + 1 == a.first then
      { b with last := a.last } :: r
    else b :: mergeVoid a r

/-- Issue one announcement to egress slice `i` (R189): a slice in OFF receives none; one in NAP or DOZE is woken. -/
def State.issue (s : State) (i : Nat) (a : Announce) : State :=
  if (s.slice i).state == .off then s else
  let x := s.finish i
  let s := s.setFinish i { x with fifo := if a.copies.isNone then mergeVoid a x.fifo else x.fifo ++ [a] }
  s.wake i wakeAnnounce

/-- The announcements of a judged frame: ARRIVE to each slice that serves an admitted copy, VOID to every other. -/
def State.announce (s : State) (v : Frame) (admitted : List (Nat × Nat)) : State :=
  (List.range 4).foldl (fun s i =>
    let cs := (admitted.filter fun e => portSlice e.1 == i).map Prod.snd
    s.issue i { dom := v.dom, first := v.oseq, last := v.oseq, copies := if cs.isEmpty then none else some cs, at_ := s.now }) s

/-- When a slice leaves OFF, each domain's expected number is one above the last number issued (R189); what stands in its
announcement FIFO, which the core holds, is late. -/
def State.restartFinish (s : State) (i : Nat) : State :=
  s.setFinish i { s.finish i with waiting := [], expected := s.buf.oseq }

/-- The photo-finish of a slice that enters OFF is cleared (14 Table 14.8): the copies that waited in it end, as those of a
port taken down. The announcement FIFO and its high-water mark are the core's (R172). -/
def State.clearFinish (s : State) (i : Nat) : State :=
  let cs := ((s.finish i).waiting.filterMap Announce.copies).flatten
  let s := s.setFinish i { s.finish i with waiting := [], expected := [] }
  cs.foldl (fun s c => match s.copy c with
    | some k => s.downDrop c k
    | none => s) s

/-! ### Judging the copies of a frame (07 R181, R184, R199, R200) -/

/-- One target of a frame. -/
structure Target where
  port : Nat
  cls : Nat
  mirror : Option Nat := none
  reason : Nat := 0
  deriving DecidableEq, Repr

/-- Judge one copy: charged and given a descriptor, or refused. The answer lists it when it is admitted. A copy refused because
P32 is down is a port-down drop too (10 R281). -/
def State.judgeCopy (s : State) (f : Nat) (v : Frame) (x : Target) : Option Nat × State :=
  let q := s.queueOf v x.port x.cls
  let n := cellsOf v.assumedLen
  match s.admitCell q x.port n with
  | .inl r =>
    let s := if r = refDown ∧ x.port = hostPort then s.count (Num.portDownDrops (roundOf x.port x.cls)) else s
    (none, (s.refuse q x.port r x.mirror).sampleReason f 6)
  | .inr s =>
    let c := s.buf.nextCopy
    let of (i : Nat) := match x.mirror with | some m => s.num (0x5300 + m) i | none => 0
    let k : Copy := { frame := f, port := x.port, cls := x.cls, queue := q, mirror := x.mirror, trunc := of 3, tag := of 5
                      reason := x.reason, len := 0, charge := n }
    let k := { k with len := s.copyLen v k v.assumedLen }
    let s := { s with buf := { s.buf with
      copies := tput s.buf.copies c k, nextCopy := c + 1, descriptors := s.buf.descriptors + 1 } }
    let s := match x.mirror with | some m => s.count (Num.mirrorMade m) | none => s
    let eg := match v.sample with | some y => y.egress | none => 0xFF
    let w : Track := { copy := c, port := x.port, cls := x.cls, queue := q }
    let s := s.onSample f fun _ y =>
      { y with
        toPort := y.toPort || x.port == eg
        first := if y.first.isNone then some w else y.first
        chosen := if x.port = eg && y.chosen.isNone then some w else y.chosen }
    (some c, s)

/-- Does session `m` mirror this frame now? Every frame offered is counted; one in RATIO is mirrored (R200). -/
def State.mirrorOffer (s : State) (m : Nat) : Bool × State :=
  let n := tget s.buf.offered m 0
  let s := { s with buf.offered := tset 0 s.buf.offered m (n + 1) }
  (n % max 1 (s.num (0x5300 + m) 4) == 0, s.count (Num.mirrorOffered m))

/-- Copies of a frame to sessions, each at most once; a session with destination 0xFF is disabled. -/
def State.judgeMirrors (s : State) (f : Nat) (v : Frame) (ms : List Nat) : List (Nat × Nat) × State :=
  ms.eraseDups.foldl (fun (acc : List (Nat × Nat) × State) m =>
    let d := acc.2.num (0x5300 + m) 1
    if d > 33 then acc else
    let (take, s) := acc.2.mirrorOffer m
    if take then
      match s.judgeCopy f v { port := d, cls := acc.2.num (0x5300 + m) 2 % 8, mirror := some m, reason := 9 } with
      | (some c, s) => (acc.1 ++ [(d, c)], s)
      | (none, s) => (acc.1, s)
    else (acc.1, s)) ([], s)

/-- Sessions whose egress source mask names a port to which a copy was admitted (R199). -/
def State.egressSessions (s : State) (ports : List Nat) : List Nat :=
  below 16 fun m => ports.any fun p => bit (s.num (0x5300 + m) 6) p

/-- Cells of a frame written so far: all of it once it has ended, its first cell before. -/
def Frame.cellsNow (v : Frame) : Nat := if v.endAt.isSome then cellsOf v.bytes.length else 1

/-- Judge all the copies of a frame, store it when one is admitted, and announce it (R181, R184, R189). -/
def State.judge (s : State) (f : Nat) (targets : List Target) (mirrors : List Nat) : State :=
  match s.frame f with
  | none => s
  | some v =>
    let (main, s) := targets.foldl (fun (acc : List (Nat × Nat) × State) x =>
      match acc.2.judgeCopy f v x with
      | (some c, s) => (acc.1 ++ [(x.port, c)], s)
      | (none, s) => (acc.1, s)) ([], s)
    let (mir, s) := s.judgeMirrors f v (mirrors ++ s.egressSessions (main.map Prod.fst))
    let all := main ++ mir
    let s := s.onFrame f fun v => { v with refs := all.length, stage := .stored, admitted := !all.isEmpty }
    let s := if all.isEmpty then s else
      let (cells, s) := s.takeCells v.slice v.cellsNow
      (s.onFrame f fun v => { v with cells }).onSample f fun n x => { x with stored := some n }
    -- a frame with no number is not announced: its mirror copies enter their queues at once
    let s := if v.numbered then s.announce v all else s.releaseCopies (fun _ _ _ => false) (all.map Prod.snd)
    if all.isEmpty then s.frameGone f
    else if v.bad.isSome then (all.map Prod.snd).foldl State.voidCopy s
    else s

end Sys2Proof.Machine
end

