-- ==== Sys2Proof/Machine/Redundancy.lean ====
section
/-! DEFINITION. The sequence engine: recovery decisions, generated numbers, the node table of PRP and HSR, and their timers
(09 R236 to R258). -/
namespace Sys2Proof.Machine

/-! ### The recovery algorithms (09 R246, R248) -/

/-- (s − ref) modulo 65,536 as a signed value (R237). -/
def seqDiff (s ref : Nat) : Int := signed 2 ((s + 65536 - ref % 65536) % 65536)

/-- What a recovery function decided. -/
inductive Decision where
  | accept (lost : Nat) (outOfOrder leap : Bool)
  | duplicate
  | rogue
  /-- a frame without a number, accepted or not -/
  | tagless (ok : Bool)
  deriving DecidableEq, Repr

def Decision.ok : Decision → Bool
  | .accept _ _ _ => true
  | .tagless ok => ok
  | _ => false

/-- The parameters of a recovery function. -/
structure RecoveryCfg where
  hist : Nat := 64
  matching : Bool := false
  leap : Bool := false
  takeNoSeq : Bool := false
  deriving DecidableEq, Repr

/-- Of a stream handle entry (Table 9.1). -/
def recoveryCfg (e : Nat) : RecoveryCfg :=
  { hist := bits e 8 7, matching := bit e 3, leap := bit e 5, takeNoSeq := bit e 4 }

/-- Zero bits among bits [hist-1:0] of a history that leave it when it moves on by `d`. -/
def zerosOut (h hist d : Nat) : Nat := (below hist fun i => decide (hist ≤ i + d) && !bit h i).length

/-- The procedure `recover` of R246 on the number of a frame, at an instant. -/
def History.recover (r : History) (c : RecoveryCfg) (now : Nat) (num : Option Nat) : Decision × History :=
  match num with
  | none => (.tagless c.takeNoSeq, r)
  | some s =>
    let fresh : History := { takeAny := false, last := BitVec.ofNat 16 s, hist := 1, at_ := some now }
    if r.takeAny then (.accept 0 false false, fresh)
    else if c.matching then
      if s = r.last.toNat then (.duplicate, r)
      else (.accept 0 false false, { r with last := BitVec.ofNat 16 s, at_ := some now })
    else
      let d := seqDiff s r.last.toNat
      if (c.hist : Int) ≤ d ∧ c.leap then (.accept 0 false true, fresh)
      else if (c.hist : Int) ≤ d ∨ d ≤ -(c.hist : Int) then (.rogue, r)
      else if 0 < d then
        let n := d.toNat
        let h := (r.hist.toNat * 2 ^ n + 1) % 2 ^ c.hist
        (.accept (zerosOut r.hist.toNat c.hist n) false false,
          { r with hist := BitVec.ofNat 64 h, last := BitVec.ofNat 16 s, at_ := some now })
      else
        let i := (-d).toNat
        if bit r.hist.toNat i then (.duplicate, r)
        else (.accept 0 true false, { r with hist := r.hist ||| BitVec.ofNat 64 (2 ^ i), at_ := some now })

/-! ### Streams (09 R240, R245) -/

def State.generator (s : State) (h : Nat) : BitVec 16 := tget s.red.generators h 0 + s.red.genBase
def State.setGenerator (s : State) (h : Nat) (n : BitVec 16) : State :=
  { s with red.generators := tset 0 s.red.generators h (n - s.red.genBase) }
def State.recoveryOf (s : State) (h : Nat) : History := tget s.red.recovery h {}
def State.setRecovery (s : State) (h : Nat) (r : History) : State := { s with red.recovery := tset {} s.red.recovery h r }

def State.recoveryEvent (s : State) (flag h : Nat) : State := s.raise 0x1A7 (2 ^ flag) (capture [(2, h)])

/-- The recovery decision of a frame with handle `h` (R245), counted per handle. -/
def State.recoverStream (s : State) (v : Frame) (h : Nat) : Bool × State :=
  let (d, r) := (s.recoveryOf h).recover (recoveryCfg v.entry) s.now (v.p.rtag.map Prod.snd)
  let s := s.setRecovery h r
  let s := match d with
    | .accept lost ooo leap =>
      let s := (s.count (Num.accepted h)).count (Num.lost h) lost
      let s := if ooo then s.count (Num.outOfOrder h) else s
      if leap then (s.count (Num.leaps h)).recoveryEvent 2 h else s
    | .duplicate => s.count (Num.duplicates h)
    | .rogue => (s.count (Num.rogue h)).recoveryEvent 0 h
    | .tagless ok =>
      let s := s.count (Num.tagless h)
      if ok then s.count (Num.accepted h) else s
  (d.ok, s)

/-- The number of a generating frame: taken when the first of its copies starts (R240). -/
def State.generateNumber (s : State) (f : Nat) (v : Frame) : Frame × State :=
  match v.handle with
  | some h =>
    if v.generates && v.number.isNone then
      let n := s.generator h
      let v := { v with number := some n }
      let s := (s.setGenerator h (n + 1)).count (Num.generated h)
      let s := { s with pair.genDirty := if s.pair.genDirty.contains h then s.pair.genDirty else s.pair.genDirty ++ [h] }
      (v, s.setFrame f v)
    else (v, s)
  | none => (v, s)

/-- A recovery function is reset (R247); its timer runs on. -/
def State.resetRecovery (s : State) (h : Nat) : State :=
  let r := s.recoveryOf h
  (s.setRecovery h { takeAny := true, last := r.last, at_ := r.at_, expired := r.expired }).count
    (Num.recoveryResets h)

/-- RECOVERY_RESET_TIMEOUT: the reset timer of recovery function `h` expires RESET µs after its last restart: the function is
reset, whatever reset it before (R247). -/
def execRecoveryResetTimeout (t : Nat) (h : Fin 32768) (s : State) : Result :=
  s.run t fun s =>
    let r := s.recoveryOf h
    let limit := bits (s.blk 0x7000 0 (8 * h) 8) 32 20 * usPs
    match r.at_ with
    | some a =>
      if !r.expired && decide (a + limit ≤ s.now) then
        ((s.setRecovery h { takeAny := true, last := r.last, at_ := r.at_, expired := true }).count (Num.recoveryResets h)).recoveryEvent 1 h
      else s
    | none => s

/-! ### The node table (09 R252 to R256) -/

def nodeCapacity : Nat := 8192

/-- The entry of an address, with its position. -/
def State.findNode (s : State) (mac : Nat) : Option (Nat × Node) := s.red.nodes.find? fun e => e.2.mac == mac
def State.setNode (s : State) (i : Nat) (n : Node) : State := { s with red.nodes := tput s.red.nodes i n }

/-- The entry of an address, made at the lowest empty position when there is none. -/
def State.nodeFor (s : State) (mac : Nat) : Option (Nat × Node) :=
  match s.findNode mac with
  | some e => some e
  | none => (firstFrom 0 nodeCapacity fun i => (tfind s.red.nodes i).isNone).map fun i => (i, { mac })

/-- The table is full: counted, with the event (R255). -/
def State.nodeFull (s : State) (mac : Nat) : State :=
  (s.count Num.nodeTableFull).raise 0x1A9 1 (capture [(4, mac / 2 ^ 16)])

/-- The dating of an entry by a frame. -/
def State.seenNow (s : State) (n : Node) : Node := { n with seen := s.us0 % 2 ^ 32, at_ := s.now }

/-- A frame with a recognised trailer or tag creates or refreshes the remote part of its source's entry (R255). -/
def State.nodeRemote (s : State) (v : Frame) : State :=
  match s.nodeFor v.p.smac with
  | some (i, n) =>
    let n := s.seenNow { n with remote := true }
    let m := s.redMode v.port
    s.setNode i { n with lanA := n.lanA || m == 1, lanB := n.lanB || m == 2 }
  | none => s.nodeFull v.p.smac

/-- A frame to be encapsulated creates or refreshes the proxied part of its source's entry; none when the table is full. -/
def State.nodeProxied (s : State) (v : Frame) : Option State :=
  (s.nodeFor v.p.smac).map fun e => s.setNode e.1 (s.seenNow { e.2 with proxied := true })

def State.redPortEvent (s : State) (flag p : Nat) : State := s.raise 0x1A8 (2 ^ flag) [byte p]

/-- A decision of the node table against the history given (R253), counted on the frame's port. -/
def State.nodeDecide (s : State) (v : Frame) (get : Node → History) (put : Node → History → Node) : Bool × State :=
  match s.findNode v.p.smac, s.receivedNumber v with
  | some (i, n), some q =>
    if !n.remote then (true, s) else
    let (d, r) := (get n).recover {} s.now (some q)
    let s := s.setNode i (put n r)
    match d with
    | .duplicate => (false, s.count (Num.prpDuplicates v.port))
    | .rogue => (false, s.count (Num.prpRogue v.port))
    | _ => (true, s.count (Num.prpAccepts v.port))
  | _, _ => (true, s)

/-- The delivery decision of a frame (R253), taken once. -/
def State.deliveryDecision (s : State) (f : Nat) (v : Frame) : Bool × Frame × State :=
  match v.delivered with
  | some b => (b, v, s)
  | none =>
    let (b, s) := s.nodeDecide v Node.delivery fun n r => { n with delivery := r }
    let v := { v with delivered := some b }
    (b, v, s.setFrame f v)

/-- The forward decision of an HSR frame for its copy to the partner (R253). FWD_A is toward the lower port of the pair. -/
def State.forwardDecision (s : State) (f : Nat) (v : Frame) (p : Nat) : Bool × Frame × State :=
  match v.forwarded with
  | some b => (b, v, s)
  | none =>
    let (b, s) :=
      if p < v.port then s.nodeDecide v Node.fwdA fun n r => { n with fwdA := r }
      else s.nodeDecide v Node.fwdB fun n r => { n with fwdB := r }
    let v := { v with forwarded := some b }
    (b, v, s.setFrame f v)

/-- The 802.1CB decision of a frame, taken once (R245). -/
def State.streamDecision (s : State) (f : Nat) (v : Frame) : Bool × Frame × State :=
  match v.handle, v.recovered with
  | some h, none =>
    if v.recovers then
      let (b, s) := s.recoverStream v h
      let v := { v with recovered := some b }
      (b, v, s.setFrame f v)
    else (true, v, s)
  | _, some b => (b, v, s)
  | none, none => (true, v, s)

/-- Is a copy of a frame wanted, once the frame's decisions are taken (R245, R253)? Mirror copies take part in none, copies
to P32 in the delivery decision alone. -/
def State.wanted (s : State) (f : Nat) (v : Frame) (k : Copy) : Bool × State :=
  if k.mirror.isSome then (true, s) else
  let tagged := (s.receivedNumber v).isSome && s.redMode v.port != 0
  if tagged && k.port == s.redPartner v.port then
    let (b, v, s) := if isHsr (s.redMode v.port) then s.forwardDecision f v k.port else (true, v, s)
    (b && v.recovered != some false, s)
  else
    let (b, v, s) := if tagged then s.deliveryDecision f v else (true, v, s)
    if !b then (false, s)
    else if k.port = hostPort then (true, s)
    else
      let (b, _, s) := s.streamDecision f v
      (b, s)

/-- The number of the proxied entry that a copy into a PRP or HSR port carries, taken when the first such copy starts
(R252). -/
def State.proxyNumber (s : State) (f : Nat) (v : Frame) (port : Nat) : Frame × State :=
  if s.proxied v port && v.proxyNumber.isNone then
    match s.findNode v.p.smac with
    | some (i, n) =>
      let v := { v with proxyNumber := some n.txSeq }
      let s := s.setNode i { n with txSeq := n.txSeq + 1 }
      let s := { s with pair.nodeDirty := if s.pair.nodeDirty.contains i then s.pair.nodeDirty else s.pair.nodeDirty ++ [i] }
      (v, s.setFrame f v)
    | none => (v, s)
  else (v, s)

/-- A history not updated for the entry forget time is reset to TAKE_ANY (R256). -/
def State.forget (s : State) (r : History) : History :=
  match r.at_ with
  | some a => if decide (a + s.num 0x7001 1 * nsPs ≤ s.now) then {} else r
  | none => r

/-- NODE_TABLE_SWEEP_VISIT: the sweep visits position `pos` (R256). -/
def execNodeTableSweepVisit (t : Nat) (pos : Fin 8192) (s : State) : Result :=
  s.run t fun s =>
    match tfind s.red.nodes pos with
    | none => s
    | some n =>
      if n.at_ + s.num 0x7001 2 * nsPs ≤ s.now then
        { s with red.nodes := tdel s.red.nodes pos }.count Num.nodesRemoved
      else s.setNode pos { n with delivery := s.forget n.delivery, fwdA := s.forget n.fwdA, fwdB := s.forget n.fwdB }

/-! ### Frames received on redundancy ports (09 R251, R254, R255) -/

/-- What becomes of a frame received on a PRP or HSR port before classification: discarded, or noted and kept. -/
def State.redIngress (s : State) (v : Frame) : Bool × State :=
  let m := s.redMode v.port
  if m = 0 then (true, s)
  else
    let own := (s.findNode v.p.smac).any fun e => e.2.proxied
    if isHsr m then
      if v.p.hsr.isNone then (false, (s.count (Num.untaggedOnRing v.port)).redPortEvent 1 v.port)
      else if own then (false, (s.countW (Num.returnedFrames v.port)).redPortEvent 2 v.port)
      else (true, s.nodeRemote v)
    else if own then (false, (s.countW (Num.ownFrames v.port)).redPortEvent 2 v.port)
    else
      match v.p.prp with
      | none => (true, s.countW (Num.noTrailer v.port))
      | some (_, lan) =>
        let s := if lan = 0xA + (m - 1) then s else (s.count (Num.wrongLan v.port)).redPortEvent 0 v.port
        (true, s.nodeRemote v)

end Sys2Proof.Machine
end

