-- ==== Sys2Proof/Machine/Rings.lean ====
section
/-! DEFINITION. Delivery of copies to P32 through the RX rings (10 R276, R279). -/
namespace Sys2Proof.Machine

/-- RING_STATUS events of a ring. -/
def State.ringEvent (s : State) (r flags : Nat) : State := s.raise (evRing r) flags (capture [(4, (s.ring r).stateWord)])

/-- SIZE of a posted RX descriptor, and whether it is allowed (Table 10.12). -/
def rxSize (d : List Byte) : Nat := leAt d 8 2
def rxSizeOk (d : List Byte) : Bool := decide (256 ≤ rxSize d) && decide (rxSize d ≤ 16384) && rxSize d % 64 == 0

/-- The RX ring of a class of P32. -/
def State.rxRing (s : State) (c : Nat) : Nat := 16 + s.num 0x8001 (c + 1)

/-- Bytes 13 to 29 of every completion of a copy (Table 10.12). -/
def rxFields (v : Frame) (k : Copy) : List Byte :=
  [byte k.reason, byte v.port, byte k.cls] ++ leBytes 8 v.tIn ++ leBytes 4 (v.tail.getD 0x7FFFFFF)
    ++ leBytes 2 (actMeta v.action)

/-- Complete the descriptor at RING_DEV: data first, then the entry with DONE, then the index, then the event (R276). -/
def State.rxComplete (s : State) (r : Nat) (d : List Byte) (data : List Byte) (flags status : Nat) (fields : List Byte) :
    State :=
  let g := s.ring r
  let s := if data.isEmpty then s else s.emit (.dma (leAt d 0 8) data)
  let entry := Machine.slice d 0 10 ++ leBytes 2 data.length ++ [byte flags] ++ fields ++ [byte status, 0x80]
  let s := s.emit (.dma (g.addr g.dev.toNat) entry)
  let s := s.setRing r { s.ring r with dev := g.dev + 1, rxPosted := g.rxPosted.tail }
  s.complete r

/-- Posted descriptors of a SIZE that is not allowed, at the front, are completed with STATUS 0x01. -/
def State.rxSkipBad (r : Nat) (fields : List Byte) : Nat → State → State
  | 0, s => s
  | n + 1, s =>
    match (s.ring r).rxPosted with
    | d :: _ =>
      if rxSizeOk d then s
      else State.rxSkipBad r fields n ((s.rxComplete r d [] 0 1 fields).count (Num.badDescriptors (r - 16)))
    | [] => s

/-- Write the bytes of a copy across descriptors; `first`: none is written yet. -/
def State.rxWrite (r : Nat) (fields : List Byte) : Nat → List Byte → Bool → State → State
  | 0, _, _, s => s
  | n + 1, bs, first, s =>
    let s := s.rxSkipBad r fields 65536
    match (s.ring r).rxPosted with
    | [] => s
    | d :: _ =>
      let part := bs.take (rxSize d)
      let rest := bs.drop (rxSize d)
      let s := s.rxComplete r d part (flagIf first 0 + flagIf rest.isEmpty 1) 0 fields
      if rest.isEmpty then s else State.rxWrite r fields n rest false s

/-- What is left of a class that no longer waits. -/
def State.endWait (s : State) (c : Nat) : State := { s with host.rxWait := tdel s.host.rxWait c }

/-- Drop a copy of P32 that the port, being down, cannot take (R281). -/
def State.dropHostDown (s : State) (id : Nat) (k : Copy) : State :=
  ((s.endWait k.cls).count (Num.portDownDrops (roundOf k.port k.cls))).dropCopy id k 9

/-- Bytes that the posted descriptors of a ring can take, after those of a SIZE not allowed at their front. -/
def Ring.rxRoom (g : Ring) : Nat := ((g.rxPosted.filter rxSizeOk).map rxSize).sum

/-- What a copy finds at the head of its class (R279): it is dropped, it waits for buffers, or it may be delivered, which the
answer says. -/
def State.hostHead (s : State) (id : Nat) (k : Copy) (v : Frame) : Bool × State :=
  if !s.hostUp then (false, s.dropHostDown id k)
  else if !((s.ring k.ring).state == .running) then
    (false, ((s.endWait k.cls).count (Num.ringStoppedDrops (k.ring - 16))).dropCopy id k 9)
  else
    let s := s.rxSkipBad k.ring (rxFields v k) 65536
    if (s.bodyOf v k).length ≤ (s.ring k.ring).rxRoom then (true, s.endWait k.cls)
    else if (tfind s.host.rxWait k.cls).isSome then (false, s)
    else
      let w : RxWait := { copy := id, stop := s.now + s.num 0x8001 9 * nsPs }
      (false, { s with host.rxWait := tput s.host.rxWait k.cls w }.ringEvent k.ring 16)

/-- Time that a frame of `len` bytes, FCS included, takes of P32 in one direction: 200 Gb/s with preamble and gap, and at most
100 Mpps (01 R12). -/
def hostPace (len : Nat) : Nat := max 10000 ((len + 20) * 40)

/-- A copy is written across the descriptors it needs, and ends; P32 sends no further one before its pace allows (01 R12). -/
def State.hostDeliver (s : State) (id : Nat) (k : Copy) (v : Frame) : State :=
  let r := k.ring
  let body := s.bodyOf v k
  let n := s.after v
  let eg := match v.sample with | some y => y.egress | none => 0
  let w : Track := { copy := id, port := k.port, cls := k.cls, queue := k.queue }
  let s := s.onSample k.frame fun n y =>
    { y with chosen := if eg = 0xFF && y.chosen.isNone then some w else y.chosen }.onTrack id fun w =>
      { w with txStart := some n }
  let s := s.rxWrite r (rxFields v k) body.length body true
  let s := ((s.countW (Num.ringFramesOut (r - 16))).countW (Num.ringBytesOut (r - 16)) body.length)
  let s := (s.countW (Num.txFrames hostPort)).countW (Num.txBytes hostPort) k.len
  let s := (s.countW (Num.queueSent k.queue)).countW (Num.queueBytes k.queue) k.len
  let s := (s.onFrame k.frame fun v => { v with latVal := some (v.latVal.getD n) }).latencySettle k.frame
  let q := s.queue k.queue
  let s := s.setQueue k.queue { q with deficit := q.deficit - k.len }
  let s := { s with host.deliverFrom := s.now + hostPace k.len }
  (s.dequeue id k).copyEnd id k 3 0

/-- The copy of a class of P32 that waits for buffers. -/
def State.rxWaiting (s : State) (c : Nat) : Option (Nat × Copy × Frame) :=
  match tfind s.host.rxWait c with
  | none => none
  | some w =>
    match s.copy w.copy with
    | some k => (s.frame k.frame).map fun v => (w.copy, k, v)
    | none => none

/-- The classes that wait on ring `r` look at it again (R279). -/
def State.rxRetry (s : State) (r : Nat) : State :=
  (List.range 8).foldl (fun s c =>
    match s.rxWaiting c with
    | some (id, k, v) => if k.ring = r then (s.hostHead id k v).2 else s
    | none => s) s

end Sys2Proof.Machine
end

