-- ==== Sys2Proof/Machine/Egress.lean ====
section
/-! DEFINITION. The photo-finish, the check of heads, the port scheduler, preemption, the end of copies, and the flush of a
port that goes down (07 R188 to R197; 08 R203 to R225). -/
namespace Sys2Proof.Machine

/-! ### Cut-through (07 R193; 08 R222; 09 R250) -/

/-- The conditions of R193 and R222 on one copy. -/
def State.cutAlone (s : State) (v : Frame) (k : Copy) : Bool :=
  decide (k.port < 32) && decide (v.port < 32) && bit (s.num 0x5200 0) k.port && k.mirror.isNone
    && s.bytePs k.port != 0 && decide (v.bytePs ≤ s.bytePs k.port)
    && ((s.queue k.queue).fifo.all fun c => match s.copy c with
      | some x => x.frame == k.frame && x.port == k.port
      | none => false)
    && !s.preemptable k.port k.cls && s.mayStart k.port k.cls k.len && decide (k.len ≤ s.largest k.port k.cls)

/-- The copy of the same frame to the partner of the copy's port (09 R250). -/
def State.pairCopy (s : State) (k : Copy) : Option Copy :=
  let q := s.redPartner k.port
  if s.redMode k.port = 0 ∨ 32 ≤ q then none
  else (s.buf.copies.find? fun e => e.2.frame == k.frame && e.2.port == q && e.2.mirror.isNone).map Prod.snd

/-- May a copy released now be cut through? Neither copy of a pair is, unless both may be. -/
def cutNow : CutTest := fun s v k =>
  s.cutAlone v k && (match s.pairCopy k with
    | some x => s.cutAlone v x
    | none => true)

/-- ANNOUNCEMENT_ARRIVE: the oldest announcement of a slice in RUN reaches its photo-finish (R190, R191). -/
def execAnnouncementArrive (t : Nat) (sl : Fin 4) (s : State) : Result :=
  s.runPipe t fun s =>
    match (s.finish sl).fifo with
    | [] => s
    | a :: rest =>
      if s.sliceRuns sl then
        (s.setFinish sl { s.finish sl with fifo := rest }).announceArrive cutNow sl a
      else s

/-- GAP_TIMEOUT: the oldest announcement that waits in a domain has waited for the gap timeout in force when it arrived (R190,
Table 7.6); the photo-finish of a slice that is not in RUN keeps its state (R172). -/
def execGapTimeout (t : Nat) (sl : Fin 4) (p : Fin 34) (c : Fin 8) (s : State) : Result :=
  s.runPipe t fun s =>
    let dom := p.val * 8 + c.val
    let mine := (s.finish sl).waiting.filter fun a => a.dom == dom
    match leastBy Announce.at_ mine with
    | some a => if s.sliceRuns sl && decide (a.at_ + a.gap ≤ s.now) then s.skipGap cutNow sl dom 0 else s
    | none => s

/-! ### The check of a head (08 R220; 09 R245, R252 to R255) -/

/-- Does a copy of `len` bytes exceed S_c: flag 0; or every window of its class: flag 1 (R220)? -/
def State.oversize (s : State) (p c len : Nat) : Option Nat :=
  if 32 ≤ p then none
  else if s.largest p c < len then some 0
  else match (s.egr p).oper.window c with
    | none => none
    | some w =>
      let need := if s.preemptable p c then s.txTime p (s.minFragment p) + s.holdAdvance p else s.txTime p len
      if w < need then some 1 else none

/-- Drop a head for oversize, counted and with the event. -/
def State.dropOversize (s : State) (id : Nat) (k : Copy) (flag : Nat) : State :=
  let s := s.count (if flag = 0 then Num.sduDrops (roundOf k.port k.cls) else Num.gateDrops (roundOf k.port k.cls))
  (s.raise 0x1A4 (2 ^ flag) [byte k.port, byte k.cls]).dropCopy id k 8

/-- The sample of a followed copy learns when the copy reached the head. -/
def State.atHead (s : State) (id : Nat) (k : Copy) (v : Frame) : Copy × State :=
  let k := { k with checked := true, headAt := some (s.after v) }
  (k, s.setCopy id k)

/-- A copy that needs the proxied entry of its source refreshes it; with the table full it goes without a trailer on a LAN A
port, its L that much shorter (R207), and is discarded on any other (R255). A frame that the full table refuses counts
once, whichever of its copies meets it first (09 Table 9.7). -/
def State.encapCheck (s : State) (id : Nat) (k : Copy) (v : Frame) : State :=
  if k.mirror.isNone && s.proxied v k.port then
    match s.nodeProxied v with
    | some s => s
    | none =>
      let s := if v.tableFull then s
        else (s.nodeFull v.p.smac).onFrame k.frame fun v => { v with tableFull := true }
      if s.redMode k.port = 1 then s.onCopy id fun k => { k with bare := true, len := k.len - 6 } else s.dropCopy id k 0xC
  else s

/-- The checks of a copy that has become the head of its queue. -/
def State.checkHead (s : State) (id : Nat) (k : Copy) (v : Frame) : State :=
  let (k, s) := s.atHead id k v
  match s.oversize k.port k.cls k.len with
  | some flag => s.dropOversize id k flag
  | none =>
    let (ok, s) := s.wanted k.frame v k
    if !ok then (s.countW (Num.duplicateDropped k.port)).dropCopy id k 0xA
    else s.encapCheck id k v

/-- A copy at the head of a queue of P32 takes the ring that its class names now; it is checked, and dropped, left waiting for
buffers, or ready to be delivered by TX_START (10 R279, R287). -/
def State.checkHostHead (s : State) (id : Nat) (k : Copy) (v : Frame) : State :=
  let (k, s) := s.atHead id { k with ring := s.rxRing k.cls } v
  let (ok, s) := s.wanted k.frame v k
  if !ok then (s.countW (Num.duplicateDropped k.port)).dropCopy id k 0xA
  else (s.hostHead id k ((s.frame k.frame).getD v)).2

/-- Is a copy's frame stored whole, or may the copy be cut through? A mirror copy of a frame that runs ahead waits for the
verdict, since no other copy of a false start is made (06 R169). -/
def Copy.ready (k : Copy) (v : Frame) : Bool := (v.endAt.isSome && (k.mirror.isNone || !v.ahead || v.verdictIn)) || k.cut

/-- Is a head one to pass, being void, or one to check: not checked yet, and its frame stored whole unless it is cut through? -/
def State.headDue (s : State) (k : Copy) : Bool :=
  k.void || (!k.checked && (s.frame k.frame).any k.ready)

/-- The first head of a class that is void, or ready and not checked yet; a copy that is still arriving holds back no other
queue of its class (R187, R220). -/
def State.newHead (s : State) (p c : Nat) : Option (Nat × Copy) :=
  (s.round p c).findSome? fun q => match (s.queue q).fifo with
    | id :: _ => (s.copy id).bind fun k => if s.headDue k then some (id, k) else none
    | [] => none

/-- COPY_BECOMES_HEAD: a copy that has become the head of its queue, and whose last cell is written unless it is cut through,
is checked; a void marker is passed (R187, R209, R220). While a copy of a class of P32 waits for buffers, no other of its
class is offered (10 R279). -/
def execCopyBecomesHead (t : Nat) (p : Fin 34) (c : Fin 8) (s : State) : Result :=
  s.runPipe t fun s =>
    match s.newHead p c with
    | none => s
    | some (id, k) =>
      if k.void then (s.dequeue id k).copyEnd id k 4 0x0B
      else match s.frame k.frame with
        | none => s
        | some v =>
          if k.port ≠ hostPort then s.checkHead id k v
          else if (tfind s.host.rxWait k.cls).isSome then s
          else s.checkHostHead id k v

/-- At a swap every checked head is checked again against the new set (R220). -/
def State.recheckHeads (s : State) (p : Nat) : State :=
  (List.range 8).foldl (fun s c =>
    (s.round p c).foldl (fun s q =>
      match (s.queue q).fifo with
      | id :: _ =>
        match s.copy id with
        | some k =>
          if k.checked && !k.void then
            match s.oversize p c k.len with
            | some flag => s.dropOversize id k flag
            | none => s
          else s
        | none => s
      | [] => s) s) s

/-! ### The port scheduler (08 R208 to R210, R224) -/

/-- The copy that class `c` would start now: it is eligible, and may start (R210, R219). A copy held back by its window is
counted once as waiting. -/
def State.candidate (s : State) (p c : Nat) : Option (Nat × Nat × Copy) × State :=
  let x := s.shaper p c
  if x.slope ≠ 0 && !x.eligible then (none, s) else
  match s.offer p c with
  | (none, _) => (none, s)
  | (some (q, id), s') =>
    match s.copy id with
    | none => (none, s)
    | some k =>
      if !k.checked || k.void then (none, s)
      else if s.mayStart p c k.len then (some (q, id, k), s')
      else if k.waited then (none, s')
      else (none, (s'.setCopy id { k with waited := true }).countW (Num.windowWaits (roundOf p c)))

/-- The highest class among those listed that may start a copy. -/
def State.choose (p : Nat) : List Nat → State → Option (Nat × Nat × Copy) × State
  | [], s => (none, s)
  | c :: r, s =>
    match s.candidate p c with
    | (some x, s) => (some x, s)
    | (none, s) => State.choose p r s

/-- The classes of a port from 7 down, express or preemptable. -/
def State.classes (s : State) (p : Nat) (preempt : Bool) : List Nat :=
  [7, 6, 5, 4, 3, 2, 1, 0].filter fun c => s.preemptable p c == preempt

/-- What DRR takes at the start of a transmission (R208). -/
def State.sent (s : State) (q id : Nat) (k : Copy) : State :=
  let x := s.queue q
  (s.setQueue q { x with deficit := x.deficit - k.len }).dequeue id k

/-- Start the transmission of a copy: its numbers, its charge, its sample and its latency sample. -/
def State.begin_ (s : State) (p q id : Nat) (k : Copy) (v : Frame) : State :=
  let plain := k.mirror.isNone
  let (v, s) := if plain && !v.ahead then s.generateNumber k.frame v else (v, s)
  let (v, s) := if plain && !v.ahead then s.proxyNumber k.frame v p else (v, s)
  let n := s.after v
  let eg := match v.sample with | some y => y.egress | none => 0
  let w : Track := { copy := id, port := p, cls := k.cls, queue := q }
  let s := s.onSample k.frame fun _ y =>
    { y with chosen := if eg = 0xFF && y.chosen.isNone then some w else y.chosen }.onTrack id fun w =>
      { w with txStart := some n }
  let s := (s.sent q id k).countW (Num.queueSent q)
  -- a gPTP event message is stamped in both domains, at the start of the first symbol after the SFD (R228)
  let sfd := { s with now := s.now + 8 * s.bytePs p }
  let s := if p < 32 && gptpEvent v.bytes then s.setPort p { s.port p with gptpOut := (sfd.ns0, sfd.domainNs 1) } else s
  let s := s.onFrame k.frame fun v => { v with
    started := true, aheadTx := if v.ahead && v.aheadTx.isNone then some n else v.aheadTx }
  let s := s.setEgr p { s.egr p with
    tx := some { copy := id, startAt := s.now, bytePs := s.bytePs p, preemptable := s.preemptable p k.cls, after := n } }
  if v.ahead then s else s.latencyMark k.frame

/-- An uncorrectable cell met before the copy starts (01 Table 1.7). Which of the frame's cells it was is free. -/
def State.cellEvent (s : State) (v : Frame) (uncorrectable : Bool) : State :=
  let (n, s) := s.free
  s.memEvent 0 uncorrectable false (capture [(4, v.cells.getD (n % max 1 v.cells.length) 0)])

/-- Start a chosen copy, or drop it when its cells cannot be read. -/
def State.startCopy (s : State) (p q id : Nat) (k : Copy) (ecc : Ecc) : State :=
  match s.frame k.frame with
  | none => s
  | some v =>
    if ecc = .good then s.begin_ p q id k v
    else if ecc = .corrected then (s.cellEvent v false).begin_ p q id k v
    else ((s.cellEvent v true).countW (Num.eccDropped p)).dropCopy id k 4

/-- Resume the preempted transmission when its class may send (R224). -/
def State.resume (s : State) (p : Nat) (x : Tx) : Option State :=
  match s.copy x.copy with
  | none => none
  | some k =>
    if s.mayStart p k.cls (k.len - x.sent) then
      some (s.setEgr p { s.egr p with tx := some { x with startAt := s.now }, suspended := none })
    else none

/-- The next transmission of a free line: express copies first, then a preempted remainder, then preemptable copies. -/
def State.startNext (s : State) (p : Nat) (ecc : Ecc) : State :=
  match s.choose p (s.classes p false) with
  | (some (q, id, k), s1) =>
    -- strict priority over all classes unless a remainder waits; copies of higher classes that wait are counted so
    if (s.egr p).suspended.isSome then s1.startCopy p q id k ecc
    else match s.choose p ((s.classes p true).filter fun c => decide (k.cls < c)) with
      | (some (q, id, k), s2) => s2.startCopy p q id k ecc
      | (none, s2) =>
        match s2.choose p (s.classes p false) with
        | (some (q, id, k), s3) => s3.startCopy p q id k ecc
        | (none, s3) => s3
  | (none, s1) =>
    match (s1.egr p).suspended with
    | some x => (s1.resume p x).getD s1
    | none =>
      match s1.choose p (s1.classes p true) with
      | (some (q, id, k), s2) => s2.startCopy p q id k ecc
      | (none, s2) => s2

/-- Bytes of a transmission sent by now, preamble apart. -/
def State.txSent (s : State) (x : Tx) : Nat := if x.bytePs = 0 then 0 else (s.now - x.startAt) / x.bytePs - 8

/-- Suspend a preemptable transmission after `n` more bytes; the line is free after the fragment's check and the gap. -/
def State.suspend (s : State) (p : Nat) (x : Tx) (n : Nat) : State :=
  (s.setEgr p { s.egr p with
    tx := none, suspended := some { x with sent := x.sent + n }
    freeAt := x.startAt + (8 + n + 16) * x.bytePs }).count (Num.fragmentsSent p)

/-- May a transmission of `len` bytes be split after `n` more (IEEE 802.3 Clause 99: neither part below the minimum)? -/
def State.splits (s : State) (p : Nat) (x : Tx) (len n : Nat) : Bool :=
  decide (s.minFragment p - 4 ≤ n) && decide (x.sent + n + 64 ≤ len)

/-- The fragment in progress ends after `n` bytes; with its check it is on the wire 4 bytes longer. -/
def State.cutFragment (s : State) (p c : Nat) (x : Tx) (n : Nat) : State :=
  let s := s.suspend p x n
  s.setEgr p { s.egr p with fragment := some (c, x.startAt + (8 + n + 4) * x.bytePs) }

/-- An express copy that is ready preempts a preemptable transmission, which ends here if it may be split (R224); the copy starts
once the check of the fragment and the gap are over. -/
def State.preempt (s : State) (p : Nat) (x : Tx) : State :=
  match s.choose p (s.classes p false), s.copy x.copy with
  | (some _, _), some old =>
    let n := s.txSent x
    if s.splits p x old.len n then s.cutFragment p old.cls x n else s
  | _, _ => s

/-- The copy that a class of P32 would deliver now: offered, checked, and not waiting for buffers (R210; 10 R279). -/
def State.hostReady (s : State) (c : Nat) : Option (Nat × Copy × Frame × State) :=
  if (tfind s.host.rxWait c).isSome then none else
  match s.offer hostPort c with
  | (some (_, id), s') =>
    match s.copy id with
    | some k => if k.checked && !k.void then (s.frame k.frame).map fun v => (id, k, v, s') else none
    | none => none
  | (none, _) => none

/-- P32 delivers the copy of its highest class that has one ready, at the pace of R12; a copy whose cells cannot be read is
dropped (01 Table 1.7). -/
def State.startHost (s : State) (ecc : Ecc) : State :=
  if s.now < s.host.deliverFrom then s else
  match [7, 6, 5, 4, 3, 2, 1, 0].findSome? s.hostReady with
  | none => s
  | some (id, k, v, s) =>
    if eccBad ecc then ((s.cellEvent v true).countW (Num.eccDropped hostPort)).dropCopy id k 4
    else
      let s := if ecc = .corrected then s.cellEvent v false else s
      match s.hostHead id k v with
      | (true, s) => s.hostDeliver id k v
      | (false, s) => s

/-- TX_START: the port starts the copy of the highest eligible class (R210). P32 delivers it to its RX ring (10 R279). -/
def execTxStart (t : Nat) (p : Fin 34) (ecc : Ecc) (s : State) : Result :=
  s.runPipe t fun s =>
    if (s.egr p).flushing then s
    else if p.val = hostPort then s.startHost ecc
    else if !s.portUp p ∨ !s.sliceRuns (portSlice p) then s else
    let e := s.egr p
    match e.tx with
    | none => if s.now < e.freeAt then s else s.startNext p ecc
    | some x => if x.preemptable then s.preempt p x else s

/-! ### The end of a transmission (06 R168, R169; 07 R186, R194 to R197) -/

/-- Why a copy on the wire is ended with a stomped FCS. -/
inductive Stomp where
  /-- 0 ECC, 1 relay, 2 link, 3 FCS: the order of Tables 7.7 and 7.8 -/
  | local_ (r : Nat)
  /-- 0 VERDICT, 1 LATE, 2 FCS: the flags of the event -/
  | falseStart (r : Nat)
  deriving DecidableEq, Repr

/-- The first reason of R196 that applies; a mirror copy never runs ahead. -/
def stompOf (v : Frame) (k : Copy) (bad : Bool) : Option Stomp :=
  if bad then some (.local_ 0)
  else if v.ahead && k.mirror.isNone && (v.falseStart.isSome || !v.verdictIn || v.bad.isSome) then
    some (.falseStart (match v.falseStart with
      | some r => r
      | none => if v.bad.isSome then 2 else 1))
  else match v.bad with
    | none => none
    | some .stomp => some (.local_ 1)
    | some .link => some (.local_ 2)
    | some _ => some (.local_ 3)

/-- The counter of a false start, in the order of R168: VERDICT, FCS, LATE. -/
def falseStartColumn (r : Nat) : Nat := if r = 0 then 0 else if r = 2 then 1 else 2

/-- Count a stomp and raise its event. -/
def State.stomped (s : State) (p len : Nat) (x : Stomp) : State :=
  let s := (s.countW (Num.txStompedFrames p)).countW (Num.txStompedBytes p) len
  match x with
  | .local_ r => (s.count (Num.localStomps p r)).raise 0x19F (2 ^ r) [byte p]
  | .falseStart r => (s.count (Num.falseStarts p (falseStartColumn r))).raise 0x19C (2 ^ r) [byte p]

/-- A frame that leaves through P33 enters the pipeline again (01 R12), or is discarded there. -/
def State.recirculate (s : State) (body : List Byte) (stomped : Bool) : State :=
  let v : Frame := {
    port := recircPort, bytePs := s.bytePs recircPort, startAt := s.now, limit := s.num (0x2000 + recircPort) 4
    bytes := withFcs body stomped, endAt := some s.now, bad := if stomped then some .stomp else none
    slice := 3, tIn := s.ns0 }
  let s := (s.countW (Num.rxFrames recircPort)).countW (Num.rxBytes recircPort) v.bytes.length
  match s.intakeClosed with
  | some n => s.count (n recircPort)
  | none => (s.newFrame v).wake 3 wakeRecirc

/-- Time a transmission of `n` bytes takes of a port: P33 sends at most 150 Mpps (01 R12). -/
def linePace (p n : Nat) (bytePs : Nat) : Nat := max (if p = recircPort then 6667 else 0) ((20 + n) * bytePs)

/-- The line of a port after the end of its transmission; a class that ends with a negative credit is not eligible until a
tick finds it otherwise (R211). -/
def State.lineFree (s : State) (p : Nat) (x : Tx) (left cls : Nat) : State :=
  let s := s.setEgr p { s.egr p with tx := none, fragment := none, freeAt := x.startAt + linePace p left x.bytePs }
  let h := s.shaper p cls
  if h.credit < 0 then s.setShaper p cls { h with eligible := false } else s

/-- The end of the copy on the wire of a port. -/
def State.finishTx (s : State) (p : Nat) (x : Tx) (k : Copy) (v : Frame) (ecc : Ecc) : State :=
  let bad := !(ecc == .good || ecc == .corrected)
  let s := if ecc = .good then s else s.cellEvent v bad
  let st := stompOf v k bad
  let body := s.bodyOf v k
  let s := if p = recircPort then s.recirculate body st.isSome else s.emit (.frame p body st.isSome)
  let s := (s.countW (Num.txFrames p)).countW (Num.txBytes p) k.len
  let s := s.countW (Num.queueBytes k.queue) k.len
  let s := if x.sent = 0 then s else s.count (Num.fragmentsSent p)
  let s := match st with
    | some r => s.stomped p k.len r
    | none => if p < 32 then s.countGptp p 0 body else s
  let fs := match st with | some (.falseStart r) => some r | _ => none
  let n := s.after v
  let s := s.onFrame k.frame fun v => { v with
    falseStart := if fs.isSome then fs else v.falseStart
    latVal := match v.latVal with
      | some m => some m
      | none => some (if fs.isSome then n else x.after) }
  let s := if fs.isSome then s.retractMirrors k.frame else s
  let s := (s.latencySettle k.frame).lineFree p x (k.len - x.sent) k.cls
  s.copyEnd x.copy k (match st with | none => 0 | some (.local_ _) => 1 | some (.falseStart _) => 2) 0

/-- COPY_TX_END: the last byte of the copy on the wire is sent, or its FCS is stomped (R186, R196). -/
def execCopyTxEnd (t : Nat) (p : Fin 34) (ecc : Ecc) (s : State) : Result :=
  s.run t fun s =>
    match (s.egr p).tx with
    | none => s
    | some x =>
      match s.copy x.copy with
      | none => s
      | some k =>
        match s.frame k.frame with
        | none => s
        | some v =>
          if v.endAt.isSome && decide (x.startAt + (8 + (k.len - x.sent)) * x.bytePs ≤ s.now) then s.finishTx p x k v ecc
          else s

/-! ### Shapers and preemption (08 R211, R212, R223, R224) -/

/-- SHAPER_TICK: slopes written since the last tick apply, and classes whose credit is not negative become eligible. -/
def State.shaperTick (s : State) (p c : Nat) : State :=
  let key := entryKey (0x6100 + p) (c + 1)
  let s := match tfind s.dict.staged key with
    | some bs => { s with dict := { s.dict with vals := tput s.dict.vals key bs, staged := tdel s.dict.staged key } }
    | none => s
  let slope := s.num (0x6100 + p) (c + 1)
  let x := s.shaper p c
  let e := s.egr p
  let s := if e.shapers.isEmpty && slope != 0 then s.setEgr p { e with shaperAt := s.now } else s
  let credit := if (x.slope = 0) = (slope = 0) then x.credit else 0
  s.setShaper p c (if slope = 0 then {} else { slope, credit, eligible := x.eligible || decide (0 ≤ credit) })

def execShaperTick (t : Nat) (p : Fin 32) (s : State) : Result :=
  s.run t fun s => (List.range 8).foldl (fun s c => s.shaperTick p c) s

def preemptionCode : Preemption → Nat
  | .inactive => 0 | .verifying => 1 | .active => 2 | .failed => 3

/-- The preemption status changes; becoming active, or failing verification, raises the event. -/
def State.setPreemption (s : State) (p : Nat) (x : Preemption) : State :=
  let s := s.setEgr p { s.egr p with preemption := x }
  match x with
  | .active => s.raise (0x20 + p) 1 [byte 2]
  | .failed => s.raise (0x20 + p) 2 [byte 3]
  | _ => s

/-- Preemption begins afresh under the operational set: at link-up, or when the mode changes (R223). -/
def State.restartPreemption (s : State) (p : Nat) : State :=
  let m := (s.egr p).oper.preempt
  if !((s.port p).link == .up) || m = 0 then s.setPreemption p .inactive
  else if m = 2 then s.setPreemption p .active
  else s.setPreemption p .verifying

/-- PREEMPTION_VERIFY_DONE: the verification of IEEE 802.3 Clause 99.4.3 ends (R223). -/
def execPreemptionVerifyDone (t : Nat) (p : Fin 32) (ok : Bool) (s : State) : Result :=
  s.run t fun s =>
    if (s.egr p).preemption == .verifying then s.setPreemption p (if ok then .active else .failed) else s

/-- Does the open gate of class `c` close within h_adv (R224)? -/
def State.holdDue (s : State) (p c : Nat) : Bool :=
  let e := s.egr p
  s.preemptable p c && e.oper.enabled && !bit e.holds.toNat c && s.gateOpen p c
    && (s.nextClose p c).any fun x => decide (x ≤ s.holdAdvance p)

/-- PREEMPT_HOLD_START: h_adv before the closing of a preemptable class's gate no fragment of the class starts, and one in
progress ends at the first point allowed (R224). -/
def execPreemptHoldStart (t : Nat) (p : Fin 32) (c : Fin 8) (s : State) : Result :=
  s.run t fun s =>
    let e := s.egr p
    if s.holdDue p c then
      let s := (s.setEgr p { e with holds := e.holds ||| BitVec.ofNat 8 (2 ^ c.val) }).count (Num.holds p)
      match e.tx with
      | some x =>
        match s.copy x.copy with
        | some k =>
          let n := max (s.minFragment p - 4) (s.txSent x)
          if x.preemptable && k.cls == c.val && s.splits p x k.len n then s.cutFragment p c x n else s
        | none => s
      | none => s
    else s

/-! ### Gates (08 R215 to R218) -/

/-- The gate states in force on a port. -/
def State.gatesNow (s : State) (p : Nat) : BitVec 8 :=
  let g := (s.egr p).oper
  if g.enabled then BitVec.ofNat 8 (match g.at_ (s.domainPs g.domain) with | some x => x.gates | none => 0)
  else 0xFF

/-- GATE_ENTRY_CHANGE: the operational list of a port moves to its next entry (R213, R215). A hold ends when its gate opens. -/
def State.gateEntry (s : State) (p : Nat) : State :=
  let g := s.gatesNow p
  let e := s.egr p
  s.setEgr p { e with gates := g, holds := e.holds &&& ~~~g }

def execGateEntryChange (t : Nat) (p : Fin 32) (s : State) : Result := s.run t fun s => s.gateEntry p

/-- The pending set becomes operational at its change time (R216). -/
def State.swapGates (s : State) (p : Nat) (g : GateSet) (at_ : Nat) : State :=
  let e := s.egr p
  let s := if s.planCovers p (g, at_) then s else { s with pow.uncovered := s.pow.uncovered ++ [(p, g, at_)] }
  let s := s.setEgr p { e with oper := { g with base := at_ }, waiting := none }
  let s := if g.preempt = e.oper.preempt then s else s.restartPreemption p
  ((((s.gateEntry p).count (Num.gateSwaps p)).raise 0x1A3 1 [byte p])).recheckHeads p

/-- Swap if the change time has come (R216, R218). -/
def State.swapIfDue (s : State) (p : Nat) : State :=
  match (s.egr p).waiting with
  | some (g, at_) => if at_ * 1000 ≤ s.domainPs g.domain then s.swapGates p g at_ else s
  | none => s

/-- GATE_SWAP: the change time of the pending set has come. -/
def execGateSwap (t : Nat) (p : Fin 32) (s : State) : Result := s.run t fun s => s.swapIfDue p

/-- The earliest start of a cycle no earlier than an instant of the set's domain, ns (R216). -/
def changeTime (base cycle earliest : Nat) : Nat :=
  if earliest ≤ base then base else base + (earliest - base + cycle - 1) / cycle * cycle

/-- The admin values of a port as a set (Table 8.7), read through `r`. -/
def gateSetOf (r : Reader) (p listLen : Nat) : GateSet :=
  let i := 0x6200 + p
  { enabled := rdField r i 1 0 1 == 1, domain := rdField r i 2 0 1
    base := (ptimeOf (rdField r i 3 0 10)).toNs, cycle := rdField r i 4 0 8
    list := readAll r i 5 listLen, sizes := readAll r i 6 16
    preempt := rdField r i 7 0 1, classes := rdField r i 8 0 4, fragment := rdField r i 9 0 1 }

/-- Load a pending set; one that was pending is replaced, after a swap that is due (R217). -/
def State.loadGates (s : State) (p : Nat) (g : GateSet) (at_ : Nat) : State :=
  let s := s.swapIfDue p
  let old := (s.egr p).waiting
  let s := s.setEgr p { s.egr p with waiting := some (g, at_) }
  if old.isSome then s.raise 0x1A3 2 [byte p] else s

/-! ### Ports taken down (08 R225) -/

/-- A copy that ends because its port went down, before or in transmission. -/
def State.endOnWire (s : State) (x : Tx) : State :=
  match s.copy x.copy with
  | some k =>
    let n := x.sent + s.txSent x
    let s := ((s.countW (Num.txFrames k.port)).countW (Num.txBytes k.port) n).countW (Num.queueBytes k.queue) n
    s.copyEnd x.copy k 4 9
  | none => s

/-- The transmission of a port ends at once, its queues are to be flushed, its shaper credits are 0. -/
def State.stopPort (s : State) (p : Nat) : State :=
  let e := s.egr p
  let s := match e.tx with | some x => s.endOnWire x | none => s
  let s := match e.suspended with | some x => s.endOnWire { x with startAt := s.now } | none => s
  let e := s.egr p
  s.setEgr p { e with
    tx := none, suspended := none, fragment := none, flushing := true
    shapers := e.shapers.map fun (k : Nat × Shaper) => (k.1, { k.2 with credit := 0 }) }

/-- Drop every copy queued to a port; `n` counts each, with its port and class. -/
def State.dropQueued (s : State) (p : Nat) (n : Nat → Nat → Nat) : State :=
  let mine := s.buf.copies.filter fun e => e.2.port == p && e.2.queued && !s.onWire e.1 e.2
  mine.foldl (fun s e =>
    match s.copy e.1 with
    | some k =>
      if k.void then (s.dequeue e.1 k).copyEnd e.1 k 4 9
      else (s.count (n k.port k.cls)).dropCopy e.1 k 9
    | none => s) s

/-- PORT_FLUSH_DONE: every copy queued to a port that left up is dropped (R225; 10 R281). -/
def execPortFlushDone (t : Nat) (p : Fin 34) (s : State) : Result :=
  s.run t fun s =>
    if (s.egr p).flushing then
      let s := s.dropQueued p fun p c => Num.portDownDrops (roundOf p c)
      let s := if p.val = hostPort then { s with host.rxWait := [] } else s
      (s.setEgr p { s.egr p with flushing := false }).raise 0x1A5 1 [byte p]
    else s

end Sys2Proof.Machine
end

