-- ==== Sys2Proof/Machine/Fdb.lean ====
section
/-! DEFINITION. The forwarding database: lookup, the learn arbiter, aging, commands, flushes, the log and the shadow
(04 R85 to R109). -/
namespace Sys2Proof.Machine

/-! ### Entries (04 R85 to R87, Table 4.1) -/

/-- An FDB entry of Table 4.1. -/
abbrev FdbEntry := BitVec 128

namespace FdbE
def mac (e : FdbEntry) : Nat := bits e.toNat 0 48
def vid (e : FdbEntry) : Nat := bits e.toNat 48 12
def valid (e : FdbEntry) : Bool := bit e.toNat 60
def pin (e : FdbEntry) : Bool := bit e.toNat 61
def multi (e : FdbEntry) : Bool := bit e.toNat 62
def saDrop (e : FdbEntry) : Bool := bit e.toNat 63
def daDrop (e : FdbEntry) : Bool := bit e.toNat 64
def age (e : FdbEntry) : Nat := bits e.toNat 65 12
/-- DEST as a port, or as a mask -/
def port (e : FdbEntry) : Nat := bits e.toNat 77 6
def dest (e : FdbEntry) : Nat := bits e.toNat 77 34
def stamp (e : FdbEntry) : Nat := bits e.toNat 111 16
def hold (e : FdbEntry) : Bool := bit e.toNat 127
def set (e : FdbEntry) (lo n v : Nat) : FdbEntry := BitVec.ofNat 128 (setBits e.toNat lo n v)
/-- The key alone, other bits 0 (Table 4.6). -/
def keyOnly (vid mac : Nat) : FdbEntry := BitVec.ofNat 128 (vid % 4096 * 2 ^ 48 + mac)
end FdbE

/-- The first index that names no entry (R86). -/
def fdbEnd : Nat := 1050624
def fdbCam : Nat := 1048576
def fdbCamSize : Nat := 2048

def Fdb.at_ (f : Fdb) (i : Nat) : FdbEntry := tget f.entries i 0
def Fdb.put (f : Fdb) (i : Nat) (e : FdbEntry) : Fdb := { f with entries := tset 0 f.entries i e }
def Fdb.excl (f : Fdb) (i : Nat) : Bool := tget f.excluded i false

/-- The bytes hashed for a key (R85): VID [11:8], VID [7:0], then the MAC from its first byte on the wire. -/
def fdbKeyBytes (vid mac : Nat) : List Byte := beBytes 2 (vid % 4096) ++ beBytes 6 mac

/-- The bucket of a key in table `k` (R85). -/
def State.fdbBucket (s : State) (k vid mac : Nat) : Nat :=
  crc32cSeed (s.num 0x2400 (1 + k)) (fdbKeyBytes vid mac) % 65536

/-- The entry of a key (R86): a key has one entry, whose index never changes. -/
def Fdb.find (f : Fdb) (vid mac : Nat) : Option (Nat × FdbEntry) :=
  f.entries.find? fun e => FdbE.valid e.2 && FdbE.vid e.2 == vid && FdbE.mac e.2 == mac

/-- May a new entry take the index (R87)? -/
def Fdb.free (f : Fdb) (i : Nat) : Bool := !FdbE.valid (f.at_ i) && !f.excl i
/-- The lowest free way of a bucket, as an index. -/
def Fdb.freeWay (f : Fdb) (base : Nat) : Option Nat := firstFrom base 8 f.free
/-- Valid entries of a bucket. -/
def Fdb.fill (f : Fdb) (base : Nat) : Nat := (below 8 fun w => FdbE.valid (f.at_ (base + w))).length

/-- Where a new entry goes (R87): the emptier candidate bucket, table 0 on a tie; the other one; the CAM; or nowhere. -/
def State.fdbPlace (s : State) (vid mac : Nat) : Option Nat :=
  let base (k : Nat) := k * 524288 + s.fdbBucket k vid mac * 8
  let k := if s.fdb.fill (base 1) < s.fdb.fill (base 0) then 1 else 0
  match s.fdb.freeWay (base k) with
  | some i => some i
  | none =>
    match s.fdb.freeWay (base (1 - k)) with
    | some i => some i
    | none => firstFrom fdbCam fdbCamSize s.fdb.free

/-! ### The FDB log (04 R104) and the mirror of every commit (12 R319) -/

/-- A record of the log (Table 4.6). -/
def fdbLogBytes (e : FdbEntry) (seq index ty other us : Nat) : List Byte :=
  leBytes 16 e.toNat ++ leBytes 4 seq ++ leBytes 4 (index % 2 ^ 21 + ty * 2 ^ 24) ++ leBytes 4 other ++ leBytes 4 us

/-- Log overflow, with the SEQ of the first record lost since the event was last clear (Table 4.10). -/
def State.logOverflow (s : State) (seq : Nat) : State :=
  let e := s.source 0x190
  s.raise 0x190 1 (if e.pend || e.fell then e.capture else capture [(4, seq)])

/-- One log record of an enabled type: SEQ advances, lost or not; a lost record is counted and raises log overflow. -/
def State.fdbLog (s : State) (ty index : Nat) (e : FdbEntry) (other : Nat := 0) : State :=
  if bit (s.num 0x2450 1) ty then
    let q := s.fdb.logSeq.toNat
    let s := { s with fdb.logSeq := s.fdb.logSeq + 1 }
    let (ok, s) := s.log 32 (fdbLogBytes e q index ty other s.us0)
    if ok then s else (s.count Num.logLost).logOverflow q
  else s

/-- The record that carries every commit of the arbiter to the standby (12 R318, R319). A commit that no log type names (an
age, a HOLD cleared: kind 1; an excluded slot returned: kind 6) is carried too (log entry 84). -/
def State.mirrorFdb (s : State) (kind index : Nat) (e : FdbEntry) : State :=
  s.mirror 6 (beBytes 4 index ++ [byte kind, 0, 0, 0] ++ leBytes 16 e.toNat)

/-- A committed change of an entry: logged, mirrored to the standby, and noted by a shadow difference that waits. -/
def State.fdbChanged (s : State) (ty index : Nat) (e : FdbEntry) (other : Nat := 0) : State :=
  let s := { s with fdb.diffs := s.fdb.diffs.map fun (d : ShadowDiff) => if d.index = index then { d with changed := true } else d }
  (s.fdbLog ty index e other).mirrorFdb ty index e

/-- An entry rewritten in place by a commit that changes AGE or HOLD alone: mirrored, and no record of the log. A shadow
difference that waits is not marked changed, because a compare ignores both fields (R105; DEDUCED, log entry 94). -/
def State.fdbRewrite (s : State) (i : Nat) (e : FdbEntry) : State := { s with fdb := s.fdb.put i e }.mirrorFdb 1 i e

/-! ### The learn arbiter (04 R93 to R95) -/

/-- Free-running device time in units of 32 µs, modulo 65,536, from the release of cold reset (R93). -/
def State.units32 (s : State) : Nat := (s.now - s.ao.coldAt) / (32 * usPs) % 65536
/-- The move-hold window in units of 32 µs, rounded up. -/
def State.holdWindow (s : State) : Nat := (s.num 0x2400 5 + 31999) / 32000
/-- Units since the latest committed learn or move of an entry. -/
def State.elapsed (s : State) (e : FdbEntry) : Nat := (s.units32 + 65536 - FdbE.stamp e) % 65536
/-- Learn mode of a port. -/
def State.learnMode (s : State) (p : Nat) : Nat := s.num (0x2410 + p) 1

/-- The entry a committed learn or move leaves: DEST, AGE, HOLD and HOLD_STAMP set (R93). -/
def State.learned (s : State) (e : FdbEntry) (port : Nat) : FdbEntry :=
  let e := FdbE.set (FdbE.set e 77 34 port) 65 12 s.fdb.tick.toNat
  FdbE.set (FdbE.set e 127 1 (b1 (s.holdWindow > 0))) 111 16 s.units32

/-- Is a learn request suppressed by a flush (R101)? -/
def Fdb.suppressed (f : Fdb) (r : LearnReq) : Bool :=
  f.flushes.any fun x => x.port == r.port && (x.vid.isNone || x.vid == some r.vid)

/-- A pinned contest: counted, logged, raised with flag [1] (R93, R104). -/
def State.pinnedContest (s : State) (i : Nat) (e : FdbEntry) (port : Nat) : State :=
  let s := (s.count (Num.pinnedContests port)).fdbLog 3 i e port
  s.raise 0x18B 2 (capture [(4, i), (1, port)])

/-- The procedure of R93 on one request. The INDEX of a table-full record, which names no entry, is 0 (DESIGN CHOICE, log
entry 84). -/
def State.learn (s : State) (r : LearnReq) : State :=
  if s.fdb.suppressed r then s.count (Num.flushSuppressions r.port) else
  match s.fdb.find r.vid r.mac with
  | none =>
    match s.fdbPlace r.vid r.mac with
    | none =>
      let s := (s.count Num.tableFull).fdbLog 0xA 0 (FdbE.keyOnly r.vid r.mac) r.port
      s.raise 0x18D 1 (capture [(2, r.vid)])
    | some i =>
      let e := s.learned (FdbE.set (FdbE.keyOnly r.vid r.mac) 60 1 1) r.port
      let s := { s with fdb := s.fdb.put i e }
      (s.count (Num.learns r.port)).fdbChanged 1 i e
  | some (i, e) =>
    if FdbE.multi e then s.pinnedContest i e r.port
    else if FdbE.port e = r.port then s.fdbRewrite i (FdbE.set e 65 12 s.fdb.tick.toNat)
    else if FdbE.pin e then s.pinnedContest i e r.port
    else if s.learnMode r.port = 2 ∨ s.learnMode (FdbE.port e) = 2 then
      let s := (s.count (Num.lockRefusals r.port)).fdbLog 4 i e r.port
      s.raise 0x18C 1 (capture [(4, i), (1, r.port)])
    else if FdbE.hold e ∧ s.elapsed e ≤ s.holdWindow then
      let s := (s.count (Num.contests r.port)).fdbLog 3 i e r.port
      s.raise 0x18B 1 (capture [(4, i), (1, r.port)])
    else
      let old := FdbE.port e
      let e' := s.learned e r.port
      let s := { s with fdb := s.fdb.put i e' }
      let s := (s.count (Num.moves r.port)).fdbChanged 2 i e' old
      s.raise 0x18A 1 (capture [(4, i), (1, r.port)])

/-- A learn request of a good frame through the slice's filter into the queue, where those of one clock stand in ascending slice
order (R92). -/
def State.learnRequest (s : State) (r : LearnReq) : State :=
  let f := tget s.fdb.filters r.slice []
  if f.any fun x => x.vid == r.vid && x.mac == r.mac && x.port == r.port && decide (s.now < x.at_ + 64 * usPs) then s
  else
    let x : FilterEntry := { vid := r.vid, mac := r.mac, port := r.port, at_ := s.now }
    let s := { s with fdb.filters := tset [] s.fdb.filters r.slice ((x :: f).take 256) }
    if s.fdb.queue.length ≥ 4096 then
      (s.count (Num.learnQueueDrops r.slice)).raise 0x18E (2 ^ r.slice)
    else
      let r := { r with at_ := s.now }
      let later (x : LearnReq) : Bool := x.at_ == s.now && decide (r.slice < x.slice)
      let q := s.fdb.queue.filter (!later ·) ++ [r] ++ s.fdb.queue.filter later
      { s with fdb := { s.fdb with
          queue := q, queueHigh := BitVec.ofNat 16 (max s.fdb.queueHigh.toNat q.length) } }

/-- The age refresh of a good frame (R96). -/
def State.ageRefresh (s : State) (vid mac port : Nat) : State :=
  match s.fdb.find vid mac with
  | some (i, e) =>
    if !FdbE.pin e && !FdbE.multi e && FdbE.port e == port && FdbE.age e != s.fdb.tick.toNat then
      { s with fdb := s.fdb.put i (FdbE.set e 65 12 s.fdb.tick.toNat) }
    else s
  | none => s

/-- May the device learn and admit now (12 R316, R325)? -/
def State.learningRuns (s : State) : Bool := !(s.pairingOn && (s.pair.role == .standby || s.pair.role == .fenced))

/-- Does the FDB walk run? A standby stops it (12 R316); a fence does not, and HOLD goes on with it (12 R325, 14 R362). -/
def State.walkRuns (s : State) : Bool := !(s.pairingOn && s.pair.role == .standby)

/-- LEARN_COMMIT: the arbiter commits the request at the head of the queue, once no step of the walk is left before it
(R93). -/
def execLearnCommit (t : Nat) (s : State) : Result :=
  s.runPipe t fun s =>
    match s.fdb.queue with
    | r :: rest => if s.learningRuns && s.fdb.ageOuts.isEmpty then { s with fdb.queue := rest }.learn r else s
    | [] => s

/-! ### Aging (04 R96 to R98) -/

/-- Is an entry expired (R97)? -/
def State.fdbExpired (s : State) (e : FdbEntry) : Bool :=
  let a := s.num 0x2400 4
  !FdbE.pin e && a != 0 && decide (a ≤ (s.fdb.tick.toNat + 4096 - FdbE.age e) % 4096)

/-- AGE_TICK: an age tick after its latest advance the age counter advances by one, and wraps at 4,096 (R96). -/
def execAgeTick (t : Nat) (s : State) : Result :=
  s.run t fun s =>
    let next := s.fdb.tickAt + s.num 0x2400 3 * nsPs
    if s.now < next then s else { s with fdb := { s.fdb with tick := s.fdb.tick + 1, tickAt := next } }

/-- Exclude a slot after an uncorrectable error (01 Table 1.7): the slot is a miss, and not free, until it is written or
deleted by software. -/
def State.fdbExclude (s : State) (i : Nat) : State :=
  let e := s.fdb.at_ i
  let s := { s with fdb := { s.fdb.put i 0 with excluded := tset false s.fdb.excluded i true } }
  s.fdbChanged 9 i (FdbE.keyOnly (FdbE.vid e) (FdbE.mac e))

/-- FDB_WALK_VISIT: the walk visits the next index (R97): it clears HOLD after the window and submits age-outs. -/
def execFdbWalkVisit (t : Nat) (ecc : Ecc) (s : State) : Result :=
  s.runPipe t fun s =>
    if s.walkRuns then
      let i := s.fdb.walk
      let e := s.fdb.at_ i
      let s := { s with fdb.walk := (i + 1) % fdbEnd }
      let s := if ecc = .corrected then s.memEvent 1 false true (capture [(4, i)]) else s
      match eccBad ecc with
      | false =>
        if FdbE.valid e then
          let s := if FdbE.hold e && decide (s.holdWindow < s.elapsed e) then
              s.fdbRewrite i (FdbE.set e 127 1 0) else s
          if s.fdbExpired e then { s with fdb.ageOuts := s.fdb.ageOuts ++ [i] } else s
        else s
      | true => (s.fdbExclude i).memEvent 1 true true (capture [(4, i)])
    else s

/-- FDB_AGE_OUT: the arbiter tests the age again and removes the entry only if it is still expired (R97). -/
def execFdbAgeOut (t : Nat) (s : State) : Result :=
  s.run t fun s =>
    match if s.walkRuns then s.fdb.ageOuts else [] with
    | [] => s
    | i :: rest =>
      let e := s.fdb.at_ i
      let s := { s with fdb.ageOuts := rest }
      if FdbE.valid e && s.fdbExpired e then
        ({ s with fdb := s.fdb.put i 0 }.count Num.ageOuts).fdbChanged 5 i e
      else s

/-! ### Commands (04 R99 to R103) -/

/-- FDB_STATE. -/
def Fdb.stateWord (f : Fdb) : Nat := b1 f.busy * 2 ^ 31 + f.index.toNat

/-- An event of FDB_STATUS. -/
def State.fdbStatus (s : State) (flags : Nat) : State := s.raise 0x191 flags (capture [(4, s.fdb.stateWord)])

/-- A write to a command register while BUSY: dropped, with OVERRUN (R103). -/
def State.fdbOverrun (s : State) : State := s.fdbStatus 4

/-- Completion with a result code: BUSY clears, FDB_STATUS advances with DONE, and FAIL when the code is not 0 (R103). -/
def State.fdbDone (s : State) (code : Nat) : State :=
  let s := { s with fdb := { s.fdb with busy := false, code := BitVec.ofNat 8 code } }
  s.fdbStatus (1 + flagIf (code != 0) 1)

/-- A command is started unless one is in progress; COUNT is that of NEXT alone. -/
def State.fdbStart (s : State) (f : State → State) : State :=
  if s.fdb.busy then s.fdbOverrun else f { s with fdb := { s.fdb with busy := true, count := 0 } }

/-- The key in FDB_KEY_LO and FDB_KEY_HI: VID and MAC. -/
def Fdb.keyVid (f : Fdb) : Nat := bits f.keyHi.toNat 16 12
def Fdb.keyMac (f : Fdb) : Nat := bits f.keyHi.toNat 0 16 * 2 ^ 32 + f.keyLo.toNat

def vidBad (v : Nat) : Bool := v == 0 || v == 4095

/-- FDB_SEARCH: the entry and index of a key (R93, Table 4.3). -/
def State.fdbSearch (s : State) : State :=
  s.fdbStart fun s =>
    if vidBad s.fdb.keyVid then s.fdbDone 3
    else match s.fdb.find s.fdb.keyVid s.fdb.keyMac with
      | some (i, e) => ({ s with fdb := { s.fdb with entry := e, index := BitVec.ofNat 21 i } }).fdbDone 0
      | none => s.fdbDone 1

/-- FDB_SEARCH. -/
def execFdbSearch (t : Nat) (m : Master) (s : State) : Result :=
  s.runBy m t fun s => s.fdbSearch

/-- Scan of NEXT: at most 4,096 indices from `i`, at most 32 entries, up to the end (R100). The listed entries are walked,
not every index: an index not listed is invalid. -/
def fdbScan (keep : FdbEntry → Bool) (limit : Nat) : Tab FdbEntry → Nat → List (Nat × FdbEntry) × Nat
  | [], _ => ([], limit)
  | (i, e) :: r, n =>
    if limit ≤ i then ([], limit)
    else if FdbE.valid e && keep e then
      if n = 1 then ([(i, e)], i + 1)
      else
        let (l, c) := fdbScan keep limit r (n - 1)
        ((i, e) :: l, c)
    else fdbScan keep limit r n

/-- FDB_NEXT: up to 32 entries from the cursor, which it advances (R100). -/
def State.fdbNext (s : State) (byVid byPort : Bool) (port : BitVec 6) (vid : BitVec 12) : State :=
  s.fdbStart fun s =>
    let c := s.fdb.cursor.toNat
    if fdbEnd < c || (byPort && decide (33 < port.toNat)) || (byVid && vidBad vid.toNat) then s.fdbDone 3
    else
      let keep (e : FdbEntry) := (!byVid || FdbE.vid e == vid.toNat)
        && (!byPort || (!FdbE.multi e && FdbE.port e == port.toNat))
      let (l, next) := fdbScan keep (min fdbEnd (c + 4096)) (s.fdb.entries.filter fun e => decide (c ≤ e.1)) 32
      let buf := (l.map fun e => leBytes 16 e.2.toNat ++ leBytes 4 e.1 ++ List.replicate 12 0).flatten
      ({ s with fdb := { s.fdb with
          nextBuf := buf, cursor := BitVec.ofNat 21 next, count := BitVec.ofNat 6 l.length } }).fdbDone 0

/-- FDB_NEXT. -/
def execFdbNext (t : Nat) (m : Master) (byVid byPort : Bool) (port : BitVec 6) (vid : BitVec 12) (s : State) : Result :=
  s.runBy m t fun s => s.fdbNext byVid byPort port vid

/-- The RW fields of FDB_ENTRY0-3 as INSERT takes them, with VALID set, AGE at the tick, HOLD clear (R99). -/
def State.inserted (s : State) (stamp : Nat) : FdbEntry :=
  let e := FdbE.set (FdbE.set s.fdb.entry 60 1 1) 65 12 s.fdb.tick.toNat
  let e := FdbE.set (FdbE.set e 127 1 0) 111 16 stamp
  if FdbE.multi e then e else FdbE.set e 77 34 (FdbE.port e)

/-- FDB_INSERT: replaces an entry in place or places a new one (R99). -/
def State.fdbInsert (s : State) : State :=
  s.fdbStart fun s =>
    let e := s.fdb.entry
    if vidBad (FdbE.vid e) || (!FdbE.multi e && decide (33 < FdbE.dest e)) then s.fdbDone 3
    else
      let put (s : State) (i stamp : Nat) : State :=
        let e := s.inserted stamp
        let s := { s with fdb := { s.fdb.put i e with index := BitVec.ofNat 21 i } }
        (s.fdbChanged 7 i e).fdbDone 0
      match s.fdb.find (FdbE.vid e) (FdbE.mac e) with
      | some (i, old) => put s i (FdbE.stamp old)
      | none =>
        match s.fdbPlace (FdbE.vid e) (FdbE.mac e) with
        | some i => put s i 0
        | none =>
          ((s.count Num.tableFull).raise 0x18D 1 (capture [(2, FdbE.vid e)])).fdbDone 2

/-- FDB_INSERT. -/
def execFdbInsert (t : Nat) (m : Master) (s : State) : Result :=
  s.runBy m t fun s => s.fdbInsert

/-- Remove the entry at an index by command (R99). -/
def State.fdbRemove (s : State) (ty i : Nat) : State :=
  let e := s.fdb.at_ i
  { s with fdb := s.fdb.put i 0 }.fdbChanged ty i e

/-- FDB_DELETE: removes the entry of a key, pinned or not (R99). -/
def State.fdbDelete (s : State) : State :=
  s.fdbStart fun s =>
    if vidBad s.fdb.keyVid then s.fdbDone 3
    else match s.fdb.find s.fdb.keyVid s.fdb.keyMac with
      | some (i, _) => ({ s with fdb.index := BitVec.ofNat 21 i }.fdbRemove 6 i).fdbDone 0
      | none => s.fdbDone 1

/-- FDB_DELETE. -/
def execFdbDelete (t : Nat) (m : Master) (s : State) : Result :=
  s.runBy m t fun s => s.fdbDelete

/-- FDB_DELETE_INDEX: removes the entry at the cursor, or returns an excluded slot to use (R99). INDEX stays as it was, here
and wherever a command finds nothing: its text (Table 4.5) leaves both open (DESIGN CHOICE, log entry 84). -/
def State.fdbDeleteIndex (s : State) : State :=
  s.fdbStart fun s =>
    let i := s.fdb.cursor.toNat
    if fdbEnd < i then s.fdbDone 3
    else if s.fdb.excl i then ({ s with fdb.excluded := tset false s.fdb.excluded i false }.mirrorFdb 6 i 0).fdbDone 0
    else if FdbE.valid (s.fdb.at_ i) then (s.fdbRemove 6 i).fdbDone 0
    else s.fdbDone 1

/-- FDB_DELETE_INDEX. -/
def execFdbDeleteIndex (t : Nat) (m : Master) (s : State) : Result :=
  s.runBy m t fun s => s.fdbDeleteIndex

/-- FDB_BAD_OP: an OP that names no command acts on nothing and completes with code 0x03 (R103). -/
def State.fdbBadOp (s : State) : State :=
  s.fdbStart fun s => s.fdbDone 3

/-- FDB_BAD_OP. -/
def execFdbBadOp (t : Nat) (m : Master) (_op : BitVec 4) (s : State) : Result :=
  s.runBy m t fun s => s.fdbBadOp

/-- FLUSH_PORT: accepted, it waits its turn among the flushes and suppresses learning toward its port (R101, R102). -/
def State.flushPort (s : State) (withPin byVid : Bool) (port : BitVec 6) (vid : BitVec 12) : State :=
  s.fdbStart fun s =>
    if 33 < port.toNat || (byVid && vidBad vid.toNat) then s.fdbDone 3
    else
      let f : Flush := { port := port.toNat, vid := if byVid then some vid.toNat else none, withPin, command := true }
      { s with fdb.flushes := s.fdb.flushes ++ [f] }

/-- FLUSH_PORT. -/
def execFlushPort (t : Nat) (m : Master) (withPin byVid : Bool) (port : BitVec 6) (vid : BitVec 12) (s : State) : Result :=
  s.runBy m t fun s => s.flushPort withPin byVid port vid

/-- Request a link-down flush: one pending per port (R102). -/
def State.linkDownFlush (s : State) (p : Nat) : State :=
  if s.fdb.flushes.tail.any fun f => f.port == p && !f.command then s
  else { s with fdb.flushes := s.fdb.flushes ++ [{ port := p, vid := none, withPin := false, command := false }] }

/-- The entries a flush removes (R101). -/
def Flush.takes (f : Flush) (e : FdbEntry) : Bool :=
  FdbE.valid e && !FdbE.multi e && FdbE.port e == f.port && (f.withPin || !FdbE.pin e)
    && (match f.vid with
      | some v => FdbE.vid e == v
      | none => true)

/-- A flush ends: a command flush completes its command, a link-down flush sets no bit in FDB_STATUS; either raises the
flush event (R101, R102). -/
def State.flushEnd (s : State) (f : Flush) : State :=
  let s := s.raise 0x18F (if f.command then 1 else 2) [byte f.port]
  if f.command then s.fdbDone 0 else s

/-- FDB_FLUSH_COMPLETE: the flush at the front has removed every matching entry. -/
def execFdbFlushComplete (t : Nat) (s : State) : Result :=
  s.run t fun s =>
    match s.fdb.flushes with
    | [] => s
    | f :: rest =>
      let hit := s.fdb.entries.filter fun e => f.takes e.2
      let s := hit.foldl (fun s e => (s.fdbRemove 8 e.1).count (Num.flushedEntries f.port)) s
      { s with fdb.flushes := rest }.flushEnd f

/-! ### Shadow compare (04 R105 to R107) -/

/-- Do an FDB entry and a shadow entry differ, in the mode given (R105)? -/
def shadowDiffers (mode : Nat) (a b : FdbEntry) : Bool :=
  let strip (e : FdbEntry) : FdbEntry := FdbE.set (FdbE.set e 65 12 0) 111 17 0
  if mode = 1 then ((FdbE.valid a && FdbE.pin a) || (FdbE.valid b && FdbE.pin b)) && strip a != strip b
  else (FdbE.valid a || FdbE.valid b) && strip a != strip b

/-- An event of FDB_SHADOW. -/
def State.shadowEvent (s : State) (flag : Nat) : State := s.raise 0x192 flag (capture [(4, s.fdb.shadowIdx.toNat)])

def shadowChunks : Nat := 4104

/-- SHADOW_FETCH: a chunk of 256 indices is fetched and compared; each difference awaits a second fetch (R105). -/
def execShadowFetch (t : Nat) (ok : Bool) (data : List Byte) (s : State) : Result :=
  s.run t fun s =>
    let mode := s.num 0x2440 1
    if mode = 0 then s else
    let c := s.fdb.chunk
    let last := c + 1 == shadowChunks
    let s := { s with fdb := { s.fdb with
      chunk := (c + 1) % shadowChunks, passes := if last then s.fdb.passes + 1 else s.fdb.passes } }
    if ok then
      let new := below 256 fun j =>
        let i := c * 256 + j
        decide (i < fdbEnd) && !s.fdb.excl i && !(s.fdb.diffs.any fun d => d.index == i)
          && shadowDiffers mode (s.fdb.at_ i) (BitVec.ofNat 128 (leAt data (16 * j) 16))
      { s with fdb.diffs := s.fdb.diffs ++ new.map fun j => { index := c * 256 + j, at_ := s.now } }
    else (s.count Num.shadowFailures).shadowEvent 2

/-- SHADOW_CONFIRM_FETCH: a second fetch, at least the settle time later, confirms a difference or clears it (R106). -/
def execShadowConfirmFetch (t : Nat) (ok : Bool) (index : Nat) (entry : BitVec 128) (s : State) : Result :=
  s.run t fun s =>
    match s.fdb.diffs.find? fun d => d.index == index && decide (d.at_ + s.num 0x2440 4 * nsPs ≤ s.now) with
    | none => s
    | some d =>
      if !ok then (s.count Num.shadowFailures).shadowEvent 2 else
      let s := { s with fdb.diffs := s.fdb.diffs.filter fun x => x.index != index }
      let e := s.fdb.at_ index
      if !shadowDiffers (s.num 0x2440 1) e entry then s.count Num.shadowTransients
      else if d.changed then s
      else
        let s := (s.count Num.shadowMismatches)
        let n := b1 (bit (s.num 0x2450 1) 0xB) + b1 (bit (s.num 0x2450 1) 0xC)
        let s := if n = 0 || (s.ring 32).logRoom n then (s.fdbLog 0xB index e).fdbLog 0xC index entry
          else
            let q := s.fdb.logSeq.toNat
            let s := { s with fdb.logSeq := s.fdb.logSeq + BitVec.ofNat 32 n }
            (s.count Num.logLost n).logOverflow q
        { s with fdb.shadowIdx := BitVec.ofNat 21 index }.shadowEvent 1

end Sys2Proof.Machine
end

