-- ==== Sys2Proof/Machine/FlowTable.lean ====
section
/-! DEFINITION. The flow table: records and their homes, the flow cache, tail updates settled or withdrawn, NAPT bindings,
the tail free list, deletion, insertion with relocation, poisoned records (05 R111 to R134; 06 R151 to R156, R164 to R166). -/
namespace Sys2Proof.Machine

/-! ### Heads and keys (05 Tables 5.3, 5.4) -/

namespace Hd
def valid (h : BitVec 512) : Bool := bit h.toNat 0
def poison (h : BitVec 512) : Bool := bit h.toNat 1
def keybad (h : BitVec 512) : Bool := bit h.toNat 2
/-- 0 ACTIVE, 1 EXPIRING -/
def state (h : BitVec 512) : Nat := fld h 3 2
def alt (h : BitVec 512) : Nat := fld h 5 1
def policy (h : BitVec 512) : Nat := fld h 6 10
def tail (h : BitVec 512) : Nat := fld h 16 27
def key (h : BitVec 512) : FlowKey := BitVec.ofNat 320 (fld h 64 320)
def verdict (h : BitVec 512) : Nat := fld h 384 3
def redir (h : BitVec 512) : Nat := fld h 387 6
def pin (h : BitVec 512) : Bool := bit h.toNat 393
def exports (h : BitVec 512) : Bool := bit h.toNat 394
def action (h : BitVec 512) : Nat := fld h 400 24
/-- The bits an INSERT writes: META, ACTION, EXPORT, PIN, REDIR, VERDICT, KEY, POLICY. -/
def rwMask : Nat := (2 ^ 40 - 2 ^ 0) * 2 ^ 400 + (2 ^ 11 - 1) * 2 ^ 384 + (2 ^ 320 - 1) * 2 ^ 64 + (2 ^ 10 - 1) * 2 ^ 6
/-- No tail known. -/
def noTail : Nat := 0x7FFFFFF
end Hd

/-- A head, and a tail, as received: reserved bits are 0 (00 R2; Tables 5.4, 5.5). -/
def cleanHead (h : BitVec 512) : BitVec 512 := setFld (setFld (setFld h 440 72 0) 397 3 0) 43 21 0
def cleanTail (v : BitVec 512) : BitVec 512 := setFld v 0 55 0

/-- A key without the bits that Table 5.3 reserves. The FLOW_KEY and FLOW_HEAD registers hold those as written, since an INSERT
of a key with one set is a bad argument (Table 5.9); they read as 0 (00 R2). -/
def cleanFlowKey (k : FlowKey) : FlowKey := setFld (setFld k 304 3 0) 0 8 0

/-- A head as the link brings it: the reserved bits of its key are ignored too (00 R2). -/
def linkHead (h : BitVec 512) : BitVec 512 := setFld (setFld (cleanHead h) 368 3 0) 64 8 0

-- Fields of a key.
namespace Ky
def zone (k : FlowKey) : Nat := bits k.toNat 312 8
def ktype (k : FlowKey) : Nat := bits k.toNat 308 4
def canon : FlowKey := BitVec.ofNat 320 (2 ^ 307)
def proto (k : FlowKey) : Nat := bits k.toNat 296 8
def sport (k : FlowKey) : Nat := bits k.toNat 280 16
def dport (k : FlowKey) : Nat := bits k.toNat 264 16
def sip (k : FlowKey) : Nat := bits k.toNat 136 128
def dip (k : FlowKey) : Nat := bits k.toNat 8 128
end Ky

/-- Slots of the head array, tails of the tail array. -/
def headSlots : Nat := 2 ^ 27
def tailCount : Nat := 67108864

def State.headAt (s : State) (x : Nat) : BitVec 512 := tget s.flow.heads x 0
/-- A head written: the relocation CAM's copy of a moving record follows (05 R128). -/
def State.setHead (s : State) (x : Nat) (h : BitVec 512) : State :=
  { s with flow := { s.flow with
      heads := tset 0 s.flow.heads x h
      cam := s.flow.cam.map fun m => if m.src = x then { m with copy := h } else m } }

/-- An admission policy entry (Table 5.2). -/
def State.policyEntry (s : State) (n : Nat) : BitVec 128 := BitVec.ofNat 128 (s.blk 0x3001 0 (16 * n) 16)
namespace Pol
def ktype (e : BitVec 128) : Nat := fld e 0 4
def bidir (e : BitVec 128) : Bool := bit e.toNat 4
def inner (e : BitVec 128) : Bool := bit e.toNat 5
def miss (e : BitVec 128) : Nat := fld e 6 2
def initVerdict (e : BitVec 128) : Nat := fld e 8 3
def initRedir (e : BitVec 128) : Nat := fld e 11 6
def initAction (e : BitVec 128) : Nat := fld e 17 24
def fail (e : BitVec 128) : Nat := fld e 41 2
def pend (e : BitVec 128) : Nat := fld e 43 2
def exports (e : BitVec 128) : Bool := bit e.toNat 45
def idle (e : BitVec 128) : Nat := fld e 48 32
end Pol

def keyBytes (k : FlowKey) : List Byte := leBytes 40 k.toNat

/-- The homes of a key (R117): buckets b1, b2 and slots s1, s2. -/
def State.homes (s : State) (k : FlowKey) : (Nat × Nat) × (Nat × Nat) :=
  let h1 := crc32cSeed (s.num 0x3000 1) (keyBytes k)
  let h2 := crc32cSeed (s.num 0x3000 2) (keyBytes k)
  let b1 := h1 % 2 ^ 25
  let b2 := h2 % 2 ^ 25
  ((b1, bits h1 25 2), (if b2 = b1 then b1 ^^^ 1 else b2, bits h2 25 2))

/-- The slots an insert may use, in the order of R127. -/
def State.candidates (s : State) (k : FlowKey) : List Nat :=
  let ((b1, s1), (b2, s2)) := s.homes k
  let others (b i : Nat) := (below 4 fun j => j != i).map fun j => b * 4 + j
  [b1 * 4 + s1, b2 * 4 + s2] ++ others b1 s1 ++ others b2 s2

/-- Do two keys name one record under a policy? With BIDIR both directions share it, so CANON does not tell them apart. -/
def sameKey (bidir : Bool) (a b : FlowKey) : Bool := a == b || (bidir && a ^^^ b == Ky.canon)

/-- The policy entry that governs a frame: of the table in force when it entered the flow stage (R113). -/
def State.policyFor (s : State) (v : Frame) (n : Nat) : BitVec 128 :=
  match v.policies with
  | some t => BitVec.ofNat 128 (leAt t (16 * n) 16)
  | none => s.policyEntry n

/-- The head that matches a key under the admission policies `pol`, with its slot (R118): at most one does. A record that moves
still stands at its source. -/
def State.matchHead (s : State) (pol : Nat → BitVec 128) (k : FlowKey) : Option (Nat × BitVec 512) :=
  s.flow.heads.find? fun e =>
    Hd.valid e.2 && !Hd.keybad e.2 && sameKey (Pol.bidir (pol (Hd.policy e.2))) (Hd.key e.2) k

/-- The head that matches a key under the committed policies. -/
def State.findHead (s : State) (k : FlowKey) : Option (Nat × BitVec 512) := s.matchHead s.policyEntry k

/-- The slots that are homes of a record's key (R117). -/
def State.homeSlots (s : State) (k : FlowKey) : List Nat :=
  let ((b1, s1), (b2, s2)) := s.homes k
  [b1 * 4 + s1, b2 * 4 + s2]

/-- Is the head in slot `x` at one of its homes? -/
def State.atHome (s : State) (x : Nat) (h : BitVec 512) : Bool := (s.homeSlots (Hd.key h)).contains x

/-- The slots a search for a key reads from memory, which finds `found` (R118): its homes, and unless the record stands at one of
them the other slots of its buckets. -/
def State.slotsRead (s : State) (found : Option (Nat × BitVec 512)) (k : FlowKey) : List Nat :=
  if found.any fun e => (s.homeSlots k).contains e.1 then s.homeSlots k else s.candidates k

/-! ### The flow cache (05 R119, R120) -/

def headSetOf (s : State) (k : FlowKey) : Nat := crc32cSeed (s.num 0x3000 1) (keyBytes k) % 8192

/-- Is the head in slot `x` with key `k` in the head cache? -/
def State.headCached (s : State) (k : FlowKey) (x : Nat) : Bool := (tget s.flow.headCache (headSetOf s k) []).contains x

/-- Drop a slot from the head cache. -/
def State.uncacheHead (s : State) (x : Nat) : State :=
  { s with flow.headCache := (s.flow.headCache.map fun e => (e.1, e.2.filter (· != x))).filter fun e => !e.2.isEmpty }

/-- Use of a cached head: it becomes the most recently used. -/
def State.touchHead (s : State) (k : FlowKey) (x : Nat) : State :=
  let i := headSetOf s k
  { s with flow.headCache := tset [] s.flow.headCache i (x :: (tget s.flow.headCache i []).filter (· != x)) }

/-- Place a head in the head cache, replacing the least recently used of a full set (R120; 14 R383). -/
def State.cacheHead (s : State) (k : FlowKey) (x : Nat) : State :=
  let i := headSetOf s k
  let l := x :: (tget s.flow.headCache i []).filter (· != x)
  let s := if l.length > 16 then { s with pow.replaced := s.pow.replaced + 1 } else s
  { s with flow.headCache := tset [] s.flow.headCache i (l.take 16) }

def State.uncacheTail (s : State) (t : Nat) : State :=
  let i := t % 16384
  { s with flow.tailCache := tset [] s.flow.tailCache i ((tget s.flow.tailCache i []).filter fun c => c.tail != t) }

/-- Is the tail in the tail cache? -/
def State.tailCached (s : State) (t : Nat) : Bool := (tget s.flow.tailCache (t % 16384) []).any fun c => c.tail == t

/-- A frame updates a cached tail: PROMO rises, and at the threshold the head is placed in the head cache. Every later frame
places again a head that has been evicted meanwhile (DESIGN CHOICE, log entry 85: R120 says when PROMO reaches P). -/
def State.promote (s : State) (t : Nat) (k : FlowKey) (x : Nat) : State :=
  if !s.tailCached t then s else
  let n := min 63 (fld (s.tailVal t) 87 6 + 1)
  let s := s.setTail t (setFld (s.tailVal t) 87 6 n)
  if n ≥ s.flow.threshold.toNat && !s.headCached k x && (s.patOfTail t).isNone then s.cacheHead k x else s

/-! ### Mirror records of the flow table (12 Table 12.3) -/

/-- A tail image on the link: meter fields and PROMO as 0. -/
def tailImage (v : BitVec 512) : List Byte := leBytes 64 (setFld (setFld v 272 72 0) 87 6 0).toNat
def State.mirrorPlace (s : State) (t : Nat) (h v : BitVec 512) : State :=
  s.mirror 1 (beBytes 4 t ++ leBytes 64 h.toNat ++ tailImage v)
def State.mirrorHead (s : State) (t : Nat) (h : BitVec 512) : State := s.mirror 2 (beBytes 4 t ++ leBytes 64 h.toNat)
def State.mirrorDelete (s : State) (t reason : Nat) : State := s.mirror 3 (beBytes 4 t ++ [byte reason, 0, 0, 0])
def State.mirrorCt (s : State) (t ct aux : Nat) : State :=
  s.mirror 4 (beBytes 4 t ++ [byte ct, 0, 0, 0] ++ beBytes 4 aux)

/-! ### NAPT bindings (06 R151 to R156, Tables 6.5, 6.6) -/

namespace Bd
def valid (b : BitVec 512) : Bool := bit b.toNat 0
def used (b : BitVec 512) : Nat := fld b 167 9
def cursor (b : BitVec 512) : Nat := fld b 176 8
def block (b : BitVec 512) : Nat := fld b 184 8
def slot (b : BitVec 512) : Nat := fld b 192 16
def pool (b : BitVec 512) : Nat := fld b 208 8
def zone (b : BitVec 512) : Nat := fld b 216 8
def inside (b : BitVec 512) : Nat := fld b 224 32
def port (b : BitVec 512) (k : Nat) : Bool := bit b.toNat (256 + k)
end Bd

/-- A NAPT pool (Table 6.5). -/
structure Pool where
  valid : Bool
  firstBlock : Nat
  extZone : Nat
  slotBase : Nat
  count : Nat
  addrBase : Nat
  deriving DecidableEq, Repr

def poolOf (w : Nat) : Pool :=
  { valid := bit w 0, firstBlock := bits w 48 8, extZone := bits w 56 8, slotBase := bits w 64 16
    count := bits w 80 16, addrBase := bits w 96 32 }
def State.pool (s : State) (i : Nat) : Pool := poolOf (s.blk 0x3111 0 (16 * i) 16)

def State.binding (s : State) (b : Nat) : BitVec 512 := tget s.flow.bindings b 0
def State.setBinding (s : State) (b : Nat) (v : BitVec 512) : State :=
  { s with flow.bindings := tset 0 s.flow.bindings b v }
def ownerKey (slot block : Nat) : Nat := slot * 256 + block

/-- A NAT mirror record: op 1 made, 2 taken, 3 released, 4 freed. -/
def State.mirrorNat (s : State) (b op k port : Nat) (v : BitVec 512) : State :=
  s.mirror 5 (beBytes 4 b ++ [byte op, byte k] ++ beBytes 2 port ++ beBytes 4 (Bd.inside v)
    ++ [byte (Bd.zone v), byte (Bd.pool v)] ++ beBytes 2 (Bd.slot v) ++ [byte (Bd.block v), 0, 0, 0])

/-- The bucket of an inside host: bindings 4 × bucket to 4 × bucket + 3; binding 0 is never used. The address is hashed in
network order, which R152 does not state (DESIGN CHOICE, log entry 85). -/
def State.natWays (s : State) (zone pool addr : Nat) : List Nat :=
  let h := crc32cSeed (s.num 0x3112 1) ([byte zone, byte pool] ++ beBytes 4 addr) % 2 ^ 15
  (below 4 fun w => h * 4 + w != 0).map fun w => h * 4 + w

/-- The lowest free block at or above FIRST_BLOCK of an address slot. -/
def State.freeBlock (s : State) (slot first : Nat) : Option Nat :=
  let m := tget s.flow.blocks slot 0
  firstFrom first (256 - first) fun i => !m.getLsbD i

/-- Scan address slots of a pool from its rotating cursor: slot number and block. -/
def State.scanPool (s : State) (p : Pool) : Nat → Nat → Option (Nat × Nat)
  | 0, _ => none
  | n + 1, i =>
    let sl := p.slotBase + i % p.count
    match s.freeBlock sl p.firstBlock with
    | some b => some (sl, b)
    | none => s.scanPool p n (i + 1)

/-- Take the first free offset after CURSOR (R152 step 3). -/
def State.takeOffset (s : State) (b port : Nat) : Option (Nat × State) :=
  let v := s.binding b
  match firstFrom (Bd.cursor v + 1) 256 fun i => !Bd.port v (i % 256) with
  | none => none
  | some i =>
    let k := i % 256
    let v := setFld (setFld (setFld v (256 + k) 1 1) 176 8 k) 167 9 (Bd.used v + 1)
    let s := s.setBinding b v
    let s := { s with flow.ports := tset 0 s.flow.ports (b * 256 + k) (BitVec.ofNat 16 port) }
    some (b * 256 + k, s.mirrorNat b 2 k port v)

/-- Allocate a port for an inside host (R152): NAT_REF and the state, or why it fails: 0 NAT_BIND, 1 NAT_BLOCK, 2 NAT_POOL
(R153). A failure leaves nothing allocated. -/
def State.natAllocate (s : State) (zone pool addr port : Nat) : Nat ⊕ (Nat × State) :=
  let ways := s.natWays zone pool addr
  let mine (b : Nat) := let v := s.binding b
    Bd.valid v && Bd.zone v == zone && Bd.pool v == pool && Bd.inside v == addr
  match ways.find? mine with
  | some b =>
    match s.takeOffset b port with
    | some r => .inr r
    | none => .inl 1
  | none =>
    match ways.find? fun b => !Bd.valid (s.binding b) with
    | none => .inl 0
    | some b =>
      let p := s.pool pool
      let c := tget s.flow.cursors pool 0
      match if p.count = 0 || !p.valid then none else s.scanPool p (min 16 p.count) c with
      | none => .inl 2
      | some (sl, bl) =>
        let v : BitVec 512 := BitVec.ofNat 512
          (1 + bl * 2 ^ 184 + sl * 2 ^ 192 + pool * 2 ^ 208 + zone * 2 ^ 216 + addr * 2 ^ 224)
        let s := s.setBinding b v
        let s := { s with flow := { s.flow with
          blocks := tset 0 s.flow.blocks sl (tget s.flow.blocks sl 0 ||| BitVec.ofNat 256 (2 ^ bl))
          owners := tset 0 s.flow.owners (ownerKey sl bl) b
          cursors := tset 0 s.flow.cursors pool ((sl - p.slotBase + 1) % p.count) } }
        match (s.mirrorNat b 1 0 0 v).takeOffset b port with
        | some r => .inr r
        | none => .inl 1

/-- Release the port a NAT_REF names; a binding with none left is freed with its block (R156). -/
def State.natRelease (s : State) (ref : Nat) : State :=
  if ref < 256 then s else
  let b := ref / 256
  let k := ref % 256
  let v := s.binding b
  if !Bd.port v k then s else
  let v' := setFld (setFld v (256 + k) 1 0) 167 9 (Bd.used v - 1)
  let inside := (tget s.flow.ports ref 0).toNat
  let s := { s with flow.ports := tdel s.flow.ports ref }
  let s := (s.setBinding b v').mirrorNat b 3 k inside v
  if Bd.used v' = 0 then
    let s := { s with flow := { s.flow with
      blocks := tset 0 s.flow.blocks (Bd.slot v)
        (tget s.flow.blocks (Bd.slot v) 0 &&& ~~~ (BitVec.ofNat 256 (2 ^ Bd.block v)))
      owners := tdel s.flow.owners (ownerKey (Bd.slot v) (Bd.block v)) } }
    (s.setBinding b 0).mirrorNat b 4 0 0 v
  else s

/-! ### Tail updates: settled, held, withdrawn (06 R164 to R166) -/

namespace Tl
def ct (v : BitVec 512) : Nat := fld v 264 8
def aux (v : BitVec 512) : Nat := fld v 232 32
def nat (v : BitVec 512) : Nat := fld v 206 26
def pinned (v : BitVec 512) : Option Nat := if bit v.toNat 205 then some (fld v 197 8) else none
def lastSeen (v : BitVec 512) : Nat := fld v 344 40
def stream (v : BitVec 512) : Option Nat := if bit v.toNat 108 then some (fld v 93 15) else none
/-- The bits an INSERT writes: all but PROMO and the reserved ones. -/
def rwMask : Nat := 2 ^ 512 - 2 ^ 93 + (2 ^ 87 - 2 ^ 55)
end Tl

/-- Pending updates of a tail, in the order they were made. -/
def State.deltasOn (s : State) (l : Loc) : List Delta := s.flow.deltas.filter fun d => d.loc == l

/-- The later of two times in µs modulo 2^40. -/
def later40 (a b : Nat) : Nat := if (b + 2 ^ 40 - a) % 2 ^ 40 < 2 ^ 39 then b else a

/-- Packet and byte counts and the latest time of one frame, on a tail value (Table 5.5): updates may settle in another order
than their frames came. -/
def countFrame (v : BitVec 512) (len seen : Nat) : BitVec 512 :=
  let first := fld v 424 40 == 0
  let v := setFld v 424 40 (fld v 424 40 + 1)
  let v := setFld v 464 48 (fld v 464 48 + len)
  setFld v 344 40 (if first then seen else later40 (fld v 344 40) seen)

/-! The settled buckets of a record are its provisional ones with the debits of the updates still pending given back, and
without the refills of the later ones. Between two settlements out of order they can stand above the depth; that is so because
a pending debit made room for a later refill (DESIGN CHOICE, log entry 95). -/

/-- The buckets as the next frame finds them: the settled value with every pending refill and debit (R165). -/
def State.bucket (s : State) (t : Nat) : Bucket :=
  match tfind s.flow.live t with
  | some b => b
  | none => { c := fld (s.tailVal t) 318 25, e := fld (s.tailVal t) 292 26, t := fld (s.tailVal t) 272 20 }

/-- `x` raised by `n`, to at most `depth`; what already stands above stays. -/
def giveBack (x n depth : Nat) : Nat := max x (min (x + n) depth)

/-- A metered update enters the provisional buckets, and leaves them when it is withdrawn: its debit goes back to the bucket it
came from, its refill stands (R166 item 2). -/
def Bucket.take (b : Bucket) (d : Delta) : Bucket :=
  { c := ((b.c : Int) + d.refillC - d.debitC).toNat, e := ((b.e : Int) + d.refillE - d.debitE).toNat, t := d.meterT }
def Bucket.untake (b : Bucket) (d : Delta) : Bucket :=
  { b with c := giveBack b.c d.debitC d.depthC, e := giveBack b.e d.debitE d.depthE }

def State.setBucket (s : State) (t : Nat) (b : Bucket) : State := { s with flow.live := tput s.flow.live t b }

/-- A tail value with the settled buckets, once update `d` has settled or gone: `before` and `later` still pend. -/
def State.settleMeter (s : State) (t : Nat) (v : BitVec 512) (d : Delta) (before later : List Delta) : BitVec 512 :=
  if !d.meter then v else
  let b := s.bucket t
  let due (f : Delta → Nat) := (before ++ later).foldl (fun n x => n + f x) 0
  let ahead (f : Delta → Int) := later.foldl (fun n x => n + f x) 0
  let c := ((b.c + due Delta.debitC : Nat) : Int) - ahead Delta.refillC
  let e := ((b.e + due Delta.debitE : Nat) : Int) - ahead Delta.refillE
  setFld (setFld (setFld v 318 25 (min c.toNat (2 ^ 25 - 1))) 292 26 (min e.toNat (2 ^ 26 - 1))) 272 20 d.meterT

/-- Where no metered update of the tail pends any more, its settled buckets are those of the next frame. -/
def State.endLive (s : State) (t : Nat) : State :=
  if s.flow.deltas.any fun (d : Delta) => d.loc == .tail t && d.meter then s else { s with flow.live := tdel s.flow.live t }

/-- The buckets of a tail have been written over: what pends keeps its debits, and its refills are past. -/
def State.rewriteMeter (s : State) (t : Nat) : State :=
  let s := { s with flow.live := tdel s.flow.live t }
  let b := s.bucket t
  let due (f : Delta → Nat) := (s.deltasOn (.tail t)).foldl (fun n x => n + f x) 0
  let s := { s with flow.deltas := s.flow.deltas.map fun (d : Delta) =>
    if d.loc == Loc.tail t then { d with refillC := 0, refillE := 0, meterT := b.t } else d }
  (s.setBucket t { b with c := b.c - due Delta.debitC, e := b.e - due Delta.debitE }).endLive t

/-- Updates of a list up to and including that of frame `f`. -/
def upTo (f : Nat) : List Delta → List Delta
  | [] => []
  | d :: r => if d.frame = f then [d] else d :: upTo f r

/-- A good frame's update of a tail: added to the settled value (R166 item 1). `before`, `later`: updates still pending that were
made before it and after it. -/
def State.settleTail (s : State) (t : Nat) (d : Delta) (before later : List Delta) : State :=
  if !s.tailLive t then (if d.counts then s.count Num.lateUpdates else s) else
  let v := s.settleMeter t (s.tailVal t) d before later
  let v := if d.meter && d.latch then setFld v 343 1 1 else v
  let v := if d.counts then countFrame v d.len d.seen else v
  match d.ct with
  | some (c, a) =>
    if d.superseded then s.setTail t v
    else
      let moved := c != Tl.ct v || a != Tl.aux v
      let s := s.setTail t (setFld (setFld v 264 8 c) 232 32 a)
      if moved && (s.patOfTail t).isNone then s.mirrorCt t c a else s
  | none => s.setTail t v

/-- The gathered values of a Judge-pending key take a good frame: its bytes, and the first and latest times of arrival (R125).
-/
def gather (p : Pat) (len seen : Nat) : Pat :=
  let v := countFrame p.value len seen
  let first := if p.any && later40 (fld v 384 40) seen == seen then fld v 384 40 else seen
  { p with any := true, value := setFld v 384 40 first }

def State.settleJudge (s : State) (k : FlowKey) (d : Delta) : State :=
  { s with flow.pat := s.flow.pat.map fun (e : Nat × Pat) =>
      if e.2.key = k && e.2.tail.isNone then (e.1, gather e.2 d.len d.seen) else e }

/-- The refills of a tail's earlier pending updates are taken with the refill of `d`, and stand at its time; a settled transition
of `d` supersedes theirs. -/
def State.markOthers (s : State) (d : Delta) (before : List Delta) (ct : Bool) : State :=
  { s with flow.deltas := s.flow.deltas.map fun (x : Delta) =>
      if x.loc == d.loc && before.any (fun b => b.frame == x.frame) then
        let x := if d.meter then { x with refillC := 0, refillE := 0, meterT := d.meterT } else x
        { x with superseded := x.superseded || (ct && x.ct.isSome) }
      else x }

/-- Settle an update that is not, or no longer, held. -/
def State.settleDelta (s : State) (d : Delta) (before later : List Delta) : State :=
  match d.loc with
  | .tail t => ((s.settleTail t d before later).markOthers d before d.ct.isSome).endLive t
  | .judge k => s.settleJudge k d
  | .late => if d.counts then s.count Num.lateUpdates else s

/-- Withdraw an update (R166 items 2 to 5): the refill stands, the debit does not, a later transition stands, the pin is
cleared if it is still the one this frame set, and a NAPT allocation is released. -/
def State.withdrawDelta (s : State) (d : Delta) (before later : List Delta) : State :=
  let s := if d.counts then s.count Num.withdrawnUpdates else s
  match d.loc with
  | .judge _ => s
  | .late => s
  | .tail t =>
    if !s.tailLive t then s else
    let s := if d.meter then s.setBucket t ((s.bucket t).untake d) else s
    let v := s.settleMeter t (s.tailVal t) d before later
    let v := match d.pin with
      | some m => if Tl.pinned v = some m then setFld (setFld v 205 1 0) 197 8 0 else v
      | none => v
    let ref := Tl.nat v
    let v := if d.nat then setFld v 206 26 0 else v
    let s := s.setTail t v
    let s := if d.nat then s.natRelease ref else s
    let s := if d.ct.isSome && (d.superseded || later.any fun x => x.ct.isSome) then s.count Num.withdrawalConflicts else s
    (s.markOthers d before false).endLive t

/-- An update whose frame has ended counts and debits the bytes received (R147): a frame metered before its end was judged by
the length it was held to have (log entry 22). -/
def Delta.received (d : Delta) (n : Nat) : Delta :=
  { d with len := n, debitC := if d.debitC = 0 then 0 else n, debitE := if d.debitE = 0 then 0 else n }

/-- The pending update `d` of a frame that has ended, with the bytes received; the provisional buckets follow its debit. -/
def State.receive (s : State) (d : Delta) (n : Nat) : State × Delta :=
  let d' := d.received n
  match d.loc with
  | .tail t =>
    if !d.meter then (s, d') else
    let b := s.bucket t
    (s.setBucket t { b with c := b.c + d.debitC - d'.debitC, e := b.e + d.debitE - d'.debitE }, d')
  | _ => (s, d')

/-- The frame's end is known: its pending update is settled, or withdrawn when the frame is bad (R166). -/
def State.endDelta (s : State) (f : Nat) (good : Bool) : State :=
  match s.flow.deltas.find? fun d => d.frame == f with
  | none => s
  | some d =>
    let same := s.deltasOn d.loc
    let before := (upTo f same).filter fun x => x.frame != f
    let later := same.filter fun x => x.frame != f && !before.contains x
    let s := { s with flow.deltas := s.flow.deltas.filter fun x => x.frame != f }
    let (s, d) := match s.frame f with
      | some v => if v.endAt.isSome then s.receive d v.bytes.length else (s, d)
      | none => (s, d)
    if good then
      ((s.settleDelta d before later).onFrame f fun v => { v with settled := true }).latencySettle f
    else (s.withdrawDelta d before later).onFrame f fun v => { v with latency := false }

/-- Post a frame's update: settled at once when its end is known to be good, dropped when known to be bad, else held
(R164). -/
def State.postDelta (s : State) (f : Nat) (d : Delta) : State :=
  match s.frame f with
  | none => s
  | some v =>
    let s := match d.loc with
      | .tail t => if d.meter then s.setBucket t ((s.bucket t).take d) else s
      | _ => s
    let s := { s with flow.deltas := s.flow.deltas ++ [d] }
    if v.endAt.isSome then s.endDelta f v.bad.isNone else s

/-! ### The tail free list (05 R129) -/

/-- Tails freed less than 4 µs ago. -/
def State.youngTails (s : State) : List (Nat × Nat) := s.flow.free.young.filter fun e => decide (s.now < e.2 + 4 * usPs)

/-- The tail at the head of the free list, unless it was freed less than 4 µs ago: the list is first in, first out, and such a
head leaves it as if empty (DESIGN CHOICE, log entry 85). -/
def State.nextTail (s : State) : Option (Nat × Runs) :=
  match Runs.pop s.flow.free.runs with
  | some (t, r) => if s.youngTails.any fun e => e.1 == t then none else some (t, r)
  | none => none

/-- Draw a tail: a record of the draw goes to the standby. -/
def State.drawTail (s : State) : Option (Nat × State) :=
  s.nextTail.map fun (t, r) =>
    let s := { s with flow := { s.flow with
      free := { runs := r, young := s.youngTails }, inUse := s.flow.inUse + 1
      meterNew := tset false s.flow.meterNew t true } }
    (t, s.mirror 10 (beBytes 4 t))

/-- A tail returns without a placement. -/
def State.returnTail (s : State) (t : Nat) : State :=
  let s := { s with flow := { s.flow with
    free := { s.flow.free with runs := s.flow.free.runs.push t }, inUse := s.flow.inUse - 1
    meterNew := tdel s.flow.meterNew t } }
  s.mirror 11 (beBytes 4 t)

/-! ### Moves (05 R127, R128) -/

/-- Is a slot named by a relocation CAM entry? -/
def State.inCam (s : State) (x : Nat) : Bool := s.flow.cam.any fun m => m.src == x || m.dst == x
def State.slotFree (s : State) (x : Nat) : Bool := !Hd.valid (s.headAt x) && !s.inCam x

def backWord (x : Nat) : BitVec 32 := BitVec.ofNat 32 (2 ^ 31 + x % 4 * 2 ^ 25 + x / 4)
/-- The slot a back-map word names. -/
def backSlot (w : BitVec 32) : Option Nat :=
  if bit w.toNat 31 then some (bits w.toNat 0 25 * 4 + bits w.toNat 25 2) else none
def State.slotOfTail (s : State) (t : Nat) : Option Nat := backSlot (tget s.flow.backmap t 0)
def State.setBack (s : State) (t : Nat) (w : BitVec 32) : State := { s with flow.backmap := tset 0 s.flow.backmap t w }

/-- The insert whose live move leaves slot `x` goes on with the rest of its chain, or plans afresh. -/
def State.moveEnds (s : State) (x : Nat) (replan : Bool) : State :=
  { s with flow.inserts := s.flow.inserts.map fun (i : Insert) =>
      if i.live && (i.path.head?.map Hop.src) == some x then
        { i with live := false, path := if replan then [] else i.path.drop 1 } else i }

/-- A live CAM entry retires: destination, back map and cleared source take over in one clock; cached copies follow. A head
whose key has become unreadable is not moved: its source stands, and the insert plans afresh (R134). -/
def State.retireMove (s : State) (m : Move) : State :=
  if Hd.keybad m.copy then
    ({ s with flow.cam := s.flow.cam.filter fun x => x.src != m.src }.setHead m.dst 0).moveEnds m.src true
  else
  let h := setFld m.copy 5 1 (1 - Hd.alt m.copy)
  let cached := s.headCached m.key m.src
  let s := { s with flow.cam := s.flow.cam.filter fun x => x.src != m.src }
  let s := (s.setHead m.dst h).setHead m.src 0
  let s := s.uncacheHead m.src
  let s := if cached then s.touchHead m.key m.dst else s
  let s := if Hd.tail h < tailCount then s.setBack (Hd.tail h) (backWord m.dst) else s
  (s.moveEnds m.src false).count Num.relocMoves

/-- A record that is moving is finished first by whatever removes it (Table 5.6). -/
def State.finishMove (s : State) (x : Nat) : State :=
  match s.flow.cam.find? fun m => m.src == x with
  | some m => s.retireMove m
  | none => s

/-! ### Deletion (05 R129; 06 R156) -/

/-- A pending update goes elsewhere: its refill is past, and the pin and the allocation that went with its record are gone; to the
gathered values of a Judge-pending key it is a count alone (R125). -/
def Delta.moved (d : Delta) (b : Loc) : Delta :=
  let d := { d with loc := b, refillC := 0, refillE := 0, pin := none, nat := false }
  match b with
  | .judge _ => { d with meter := false, ct := none }
  | _ => d

/-- The updates still due to a tail go elsewhere; their debits are due there. -/
def State.moveDeltas (s : State) (a b : Loc) : State :=
  let s := match a with
    | .tail t => { s with flow.live := tdel s.flow.live t }
    | _ => s
  let due (f : Delta → Nat) := (s.deltasOn a).foldl (fun n d => n + f d) 0
  let old : Bucket := match b with
    | .tail t => s.bucket t
    | _ => { c := 0, e := 0, t := 0 }
  let s := { s with flow.deltas := s.flow.deltas.map fun (d : Delta) =>
    if d.loc = a then { d.moved b with meterT := old.t } else d }
  match b with
  | .tail t => (s.setBucket t { old with c := old.c - due Delta.debitC, e := old.e - due Delta.debitE }).endLive t
  | _ => s

/-- The latency samples still due to a tail are late, whatever its index becomes (06 R162). -/
def State.orphanSamples (s : State) (t : Nat) : State :=
  { s with buf.frames := s.buf.frames.map fun (e : Nat × Frame) =>
      (e.1, if e.2.tail = some t then { e.2 with tailGone := true } else e.2) }

/-- Delete the record of a tail: head, back map, tail and cached copies in one step; its port is released and its index
enters the free list. Reasons of FLOW_DELETE: 1 age-out, 2 command, 3 retire, 4 flush. -/
def State.deleteTail (s : State) (t reason : Nat) : State :=
  let s := (s.moveDeltas (.tail t) .late).orphanSamples t
  let s := match s.slotOfTail t with
    | some x => s.finishMove x
    | none => s
  let s := match s.slotOfTail t with
    | some x => if Hd.valid (s.headAt x) && (Hd.tail (s.headAt x) == t || Hd.tail (s.headAt x) == Hd.noTail) then
        (s.setHead x 0).uncacheHead x else s
    | none => s
  let ref := Tl.nat (tget s.flow.tails t 0)
  let s := ((s.setBack t 0).uncacheTail t).natRelease ref
  let s := { s with flow := { s.flow with
    tails := tdel s.flow.tails t, inUse := s.flow.inUse - 1, meterNew := tdel s.flow.meterNew t
    free := { runs := s.flow.free.runs.push t, young := s.youngTails ++ [(t, s.now)] } } }
  s.mirrorDelete t reason

/-! ### Judge exceptions and the failure path (05 R126; 11 R296) -/

def State.policyBidir (s : State) (k : FlowKey) : Bool :=
  match s.findHead k with
  | some (_, h) => Pol.bidir (s.policyEntry (Hd.policy h))
  | none => false

/-- The pending admission of a key. -/
def State.findPat (s : State) (k : FlowKey) : Option (Nat × Pat) :=
  s.flow.pat.find? fun e => sameKey (Pol.bidir e.2.entry) e.2.key k
def State.setPat (s : State) (i : Nat) (p : Pat) : State :=
  let t := tput s.flow.pat i p
  { s with flow := { s.flow with pat := t, patHigh := BitVec.ofNat 16 (max s.flow.patHigh.toNat t.length) } }
def State.dropPat (s : State) (i : Nat) : State := { s with flow.pat := tdel s.flow.pat i }
/-- The lowest free entry of the table. -/
def State.freePat (s : State) : Option Nat := firstFrom 0 4096 fun i => (tfind s.flow.pat i).isNone

/-- Reasons of an admission failure: PAT, RATE, NO_TAIL, JUDGE_Q, JUDGE. -/
def failPat : Nat := 0
def failRate : Nat := 1
def failNoTail : Nat := 2
def failJudgeQ : Nat := 3
def failJudge : Nat := 4

def State.admissionFailed (s : State) (r policy : Nat) : State :=
  (s.count (Num.admissionFailures r)).raise 0x193 (2 ^ r) (capture [(2, policy)])

/-- A Judge exception record (11 Table 11.4). -/
def exceptionBytes (k : FlowKey) (policy reason pat : Nat) (w : Witness) : List Byte :=
  let cap := min 128 w.len
  keyBytes k ++ leBytes 2 policy ++ [byte w.port, byte reason] ++ leBytes 2 w.metaData ++ leBytes 2 w.len ++ leBytes 8 w.time
    ++ leBytes 2 pat ++ [byte (b1 w.reverse + flagIf (decide (cap < 128)) 1), byte w.cls] ++ leBytes 4 cap
    ++ slice w.bytes 0 128 ++ leBytes 64 0

/-- May an exception be raised now? The failure reason otherwise. -/
def State.judgeFails (s : State) : Option Nat :=
  if !s.groupRuns judgesGroup then some failJudge
  else if s.flow.exceptions.length + s.flow.drafts.length ≥ 16384 then some failJudgeQ
  else none

/-- Raise a Judge exception: its record is written at once, or when the frame that it reports has ended (11 R296). -/
def State.judgeException (s : State) (k : FlowKey) (policy reason pat : Nat) (w : Witness) : State :=
  if (s.frame w.frame).any fun v => v.endAt.isNone then
    { s with flow.drafts := s.flow.drafts ++ [{ key := k, policy, reason, pat, first := w }] }
  else
    { s with flow.exceptions := s.flow.exceptions ++ [exceptionBytes k policy reason pat w] }.count Num.judgeExceptions

/-- Frame `f` has ended: what pending admissions and exceptions report of it is whole now, and its exceptions are written. -/
def State.witnessEnd (s : State) (f : Nat) (v : Frame) : State :=
  let whole (w : Witness) : Witness := { w with len := v.bytes.length, bytes := v.bytes.take 128 }
  let (mine, others) := s.flow.drafts.partition fun d => d.first.frame == f
  let pat := s.flow.pat.map fun (e : Nat × Pat) =>
    (e.1, if e.2.first.frame = f then { e.2 with first := whole e.2.first } else e.2)
  mine.foldl (fun (s : State) d => s.judgeException d.key d.policy d.reason d.pat (whole d.first))
    { s with flow := { s.flow with pat, drafts := others } }

/-- A hardware admission fails after its entry was made (R123, R153): the tail returns, an allocation is undone, and the
entry becomes Judge-pending with an exception, or is released on the failure path. -/
def State.admissionToJudge (s : State) (i : Nat) (p : Pat) (t reason : Nat) : State :=
  let ref := Tl.nat p.value
  let s := (((s.natRelease ref).returnTail t).moveDeltas (.tail t) (.judge p.key)).orphanSamples t
  match s.judgeFails with
  | some r => (s.dropPat i).admissionFailed r p.policy
  | none =>
    let keep := fun lo w => fld p.value lo w * 2 ^ lo
    let v := BitVec.ofNat 512 (keep 464 48 + keep 424 40 + keep 384 40 + keep 344 40)
    let p' := { p with tail := none, value := v, any := fld p.value 424 40 != 0
                       deadline := some (s.now + s.num 0x3002 4 * nsPs) }
    (s.setPat i p').judgeException p.key p.policy reason i p.first

/-! ### The command unit's end (05 R137) -/

def Flow.stateWord (f : Flow) : Nat := b1 f.busy * 2 ^ 31 + f.index.toNat
def State.flowStatus (s : State) (flags : Nat) : State := s.raise 0x197 flags (capture [(4, s.flow.stateWord)])
def State.flowOverrun (s : State) : State := s.flowStatus 4
/-- Completion: BUSY clears and FLOW_STATUS advances with DONE, and FAIL when the code is not 0. -/
def State.flowDone (s : State) (code : Nat) : State :=
  let s := { s with flow := { s.flow with busy := false, code := BitVec.ofNat 8 code, work := .none } }
  s.flowStatus (1 + flagIf (code != 0) 1)
def State.setIndex (s : State) (n : Nat) : State := { s with flow.index := BitVec.ofNat 27 n }

/-! ### Memory transactions (05 R122) -/

/-- Shares of the classes: frame lookups, admission and relocation, the aging sweep, and commands, HDM reads and the Sallar
link together. -/
def frameShare : Nat := 12288
def insertShare : Nat := 2048
def sweepShare : Nat := 1024
def commandShare : Nat := 1024

/-- Frames whose reads of memory have begun or wait, the oldest first. -/
def State.reads (s : State) : List Nat := s.flow.entered.filter fun f => (s.frame f).any Frame.mem
/-- Does the frame's lookup hold a transaction: it is within its class's share, and the rest wait for one to retire? -/
def State.readServed (s : State) (f : Nat) : Bool := (s.reads.take frameShare).contains f
/-- Does the insert hold a transaction of its class? -/
def State.insertServed (s : State) (i : Insert) : Bool :=
  (s.flow.inserts.take insertShare).any fun j => j.tail == i.tail
/-- Transactions of commands: the flow command in progress. -/
def State.commandReads (s : State) : Nat := min commandShare (b1 s.flow.busy)

/-- Transactions in flight: an operation that begins and ends within one command of the model is one more, `now`. -/
def State.inFlight (s : State) (now : Nat) : Nat :=
  min frameShare s.reads.length + min insertShare s.flow.inserts.length + s.commandReads + now

/-- The high-water mark of the transactions in flight, of all classes (0x3000.05). -/
def State.noteFlight (s : State) (now : Nat) : State :=
  { s with flow.flightHigh := BitVec.ofNat 16 (max s.flow.flightHigh.toNat (min 16384 (s.inFlight now))) }

/-! ### Insertion (05 R127) -/

/-- The other bucket of the head in slot `x`. -/
def State.otherBucket (s : State) (h : BitVec 512) : Nat × Nat :=
  let (h1, h2) := s.homes (Hd.key h)
  if Hd.alt h = 0 then h2 else h1

/-- Where a head moves in its other bucket: its home slot there if free, otherwise the lowest free slot. -/
def State.moveTarget (s : State) (h : BitVec 512) : Option Nat :=
  let (b, i) := s.otherBucket h
  if s.slotFree (b * 4 + i) then some (b * 4 + i) else firstFrom (b * 4) 4 s.slotFree

/-- One level of the breadth-first search: a chain that ends in a free slot, or the next level. A node lists slots from the
candidate on; `seen` holds the slots reached. -/
def State.searchLevel (s : State) : List (List Nat) → List Nat → (Option (List Nat)) × List (List Nat) × List Nat
  | [], seen => (none, [], seen)
  | node :: rest, seen =>
    let h := s.headAt (node.getLastD 0)
    if !Hd.valid h || Hd.keybad h || s.inCam (node.getLastD 0) then s.searchLevel rest seen else
    match s.moveTarget h with
    | some d => (some (node ++ [d]), [], seen)
    | none =>
      let b := (s.otherBucket h).1
      let next := (below 4 fun j => !seen.contains (b * 4 + j)).map fun j => b * 4 + j
      let (r, more, seen) := s.searchLevel rest (seen ++ next)
      (r, next.map (fun x => node ++ [x]) ++ more, seen)

/-- The shortest chain of at most `n` moves. -/
def State.search (s : State) : Nat → List (List Nat) → List Nat → Option (List Nat)
  | 0, _, _ => none
  | n + 1, level, seen =>
    match s.searchLevel level seen with
    | (some p, _, _) => some p
    | (none, next, seen) => if next.isEmpty then none else s.search n next seen

/-- The moves of a chain, the last first. -/
def State.hops (s : State) : List Nat → List Hop
  | a :: b :: r => s.hops (b :: r) ++ [{ key := Hd.key (s.headAt a), src := a, dst := b }]
  | _ => []

/-- Put a head in place: tail, back map, head; the record now exists (`place` of R127). -/
def State.placeHead (s : State) (i : Insert) (x : Nat) (v : BitVec 512) : State :=
  let b2 := (s.homes i.key).2.1
  let b1' := (s.homes i.key).1.1
  let alt := if x / 4 = b1' then 0 else if x / 4 = b2 then 1 else 0
  let h := setFld (setFld (setFld (setFld i.head 0 1 1) 5 1 alt) 16 27 i.tail) 43 21 0
  let s := { s with flow.tails := tset 0 s.flow.tails i.tail v }
  let s := (s.setBack i.tail (backWord x)).setHead x h
  s.mirrorPlace i.tail h v

/-- The bits of `new` where `mask` is set, of `old` elsewhere. -/
def mergeBits {n : Nat} (mask : Nat) (old new : BitVec n) : BitVec n :=
  (old &&& ~~~ (BitVec.ofNat n mask)) ||| (new &&& BitVec.ofNat n mask)

/-- An INSERT of a key that exists replaces the RW head fields, and the RW tail fields when INIT_TAIL says so (R138). -/
def State.replaceRecord (s : State) (x : Nat) (old new : BitVec 512) (tail : Option (BitVec 512)) : State :=
  let h := mergeBits Hd.rwMask old new
  let t := Hd.tail old
  let s := (s.setHead x h).mirrorHead t h
  let s := match tail with
    | some v =>
      if s.tailLive t then
        { s.setTail t (mergeBits Tl.rwMask (s.tailVal t) v) with flow.meterNew := tdel s.flow.meterNew t }.rewriteMeter t
      else s
    | none => s
  (s.setIndex t).flowDone 0

/-- Gathered counts and times of a pending admission, added into a tail as an update (R125). -/
def addGathered (v g : BitVec 512) (fresh : Bool) : BitVec 512 :=
  let add (lo w : Nat) (v : BitVec 512) := setFld v lo w (fld v lo w + fld g lo w)
  let v := add 464 48 (add 424 40 v)
  if fresh then setFld (setFld v 384 40 (fld g 384 40)) 344 40 (fld g 344 40)
  else setFld v 344 40 (later40 (fld v 344 40) (fld g 344 40))

/-- An insert that finds its key placed by another since it began (R118): a command acts on the record it finds (R138); the
gathered values of a hardware admission, and what is still due to its tail, join that record's tail (DESIGN CHOICE, log
entry 85). Its own tail returns. -/
def State.joinRecord (s : State) (i : Insert) (x : Nat) (old : BitVec 512) : State :=
  let s := { s with flow.inserts := s.flow.inserts.filter fun j => j.tail != i.tail }
  if i.command then (s.returnTail i.tail).replaceRecord x old i.head (if i.initTail then some i.init else none)
  else
    let t := Hd.tail old
    match s.flow.pat.find? fun e => e.2.tail == some i.tail with
    | none => s.returnTail i.tail
    | some (n, p) =>
      let s := ((s.dropPat n).natRelease (Tl.nat p.value)).returnTail i.tail
      let s := if s.tailLive t then s.setTail t (addGathered (s.tailVal t) p.value false) else s
      (s.moveDeltas (.tail i.tail) (.tail t)).orphanSamples i.tail

/-- An insert has its slot: a hardware admission leaves the pending-admission table, a command completes. -/
def State.placed (s : State) (i : Insert) (x : Nat) : State :=
  let s := { s with flow.inserts := s.flow.inserts.filter fun j => j.tail != i.tail }
  if i.command then
    -- a Judge-pending entry of the key is completed: its gathered values are the new tail's first update (R125), which gives it
    -- its first and latest times, those that INIT_TAIL wrote too (DESIGN CHOICE, log entry 95)
    let (v, s) := match s.findPat i.key with
      | some (n, p) =>
        if p.tail.isNone then
          (if p.any then addGathered i.init p.value true else i.init, (s.dropPat n).moveDeltas (.judge p.key) (.tail i.tail))
        else (i.init, s)
      | none => (i.init, s)
    ((s.placeHead i x v).setIndex i.tail).flowDone 0
  else
    let v := s.tailVal i.tail
    let s := match s.flow.pat.find? fun e => e.2.tail == some i.tail with
      | some (n, _) => s.dropPat n
      | none => s
    s.placeHead i x v

/-- An insert fails at the chain limit: nothing has been moved that is not in its place. -/
def State.chainLimit (s : State) (i : Insert) : State :=
  let s := { s with flow.inserts := s.flow.inserts.filter fun j => j.tail != i.tail }
  let s := (s.count Num.chainLimit).raise 0x194 1 (capture [(4, (s.homes i.key).1.1)])
  if i.command then (s.returnTail i.tail).flowDone 3
  else
    match s.flow.pat.find? fun e => e.2.tail == some i.tail with
    | some (n, p) => s.admissionToJudge n p i.tail 2
    | none => s.returnTail i.tail

def State.setInsert (s : State) (i : Insert) : State :=
  { s with flow.inserts := s.flow.inserts.map fun j => if j.tail = i.tail then i else j }

/-- Start the next move of a planned chain: re-read the source and the destination; a mismatch, or a key that has become
unreadable (R134), restarts the insert, at most twice. The CAM holds 64 moves. The destination is written at once, and reads
with VALID = 0 until the move retires (R128). -/
def State.startMove (s : State) (i : Insert) (m : Hop) : State :=
  let src := s.headAt m.src
  if !(Hd.key src == m.key && Hd.valid src && !Hd.keybad src) || !s.slotFree m.dst then
    let s := s.count Num.relocRetries
    if i.retries = 2 then s.chainLimit i else s.setInsert { i with retries := i.retries + 1, path := [] }
  else if s.flow.cam.length ≥ 64 then s
  else
    let s := (s.setInsert { i with live := true }).setHead m.dst (setFld (setFld src 5 1 (1 - Hd.alt src)) 0 1 0)
    { s with flow.cam := s.flow.cam ++ [{ key := m.key, src := m.src, dst := m.dst, copy := src }] }

/-- How many inserts relocate: their chain is planned and not all moved. At most 16 do at once (R128). -/
def State.relocating (s : State) : Nat := (s.flow.inserts.filter fun i => !i.path.isEmpty).length

/-- One turn of an insert that is not moving a head (R127): a chain already planned goes on; a key that has found its record
meanwhile needs none (R118); an insert that would be the seventeenth to relocate waits. -/
def State.insertTurn (s : State) (i : Insert) : State :=
  match i.path, s.findHead i.key with
  | m :: _, _ => s.startMove i m
  | [], some (x, h) => s.joinRecord i x h
  | [], none =>
    match (s.candidates i.key).find? s.slotFree with
    | some x => s.placed i x
    | none =>
      let cand := s.candidates i.key
      match s.search 8 (cand.map fun x => [x]) cand with
      | none => s.chainLimit i
      | some p =>
        if s.relocating ≥ 16 then s else
        match s.hops p with
        | [] => s.chainLimit i
        | m :: r => (s.setInsert { i with path := m :: r }).startMove { i with path := m :: r } m

/-! ### Poisoned records (05 R133) -/

/-- Device offsets of heads, tails and back-map words, and the memory stack that holds them (R111). -/
def headOffset (x : Nat) : Nat := 64 * x
def tailOffset (t : Nat) : Nat := 0x200000000 + 64 * t
def stackOf (off : Nat) : Nat := 6 + off / 256 % 2

/-- A memory event of a line in the stacks. -/
def State.stackEvent (s : State) (off : Nat) (uncorrectable scrub : Bool) : State :=
  s.memEvent (stackOf off) uncorrectable scrub (capture [(4, off / 64)])

def State.poisonEvent (s : State) (flag x t : Nat) : State :=
  (s.count Num.poisoned).raise 0x195 (2 ^ flag) (capture [(4, x / 4), (1, x % 4), (4, t)])

/-- POISON of a head whose tail cannot be read (R133). -/
def State.poisonTail (s : State) (x : Nat) : State :=
  let h := s.headAt x
  ((s.setHead x (setFld h 1 1 1)).uncacheHead x).poisonEvent 2 x (Hd.tail h)

/-- What error correction found in a record whose head stands in slot `x`: the words of the head rewritten with fresh ECC, by
where the error stood, or the corrected word counted for the stack that holds it. The fields of word 0 that the rewrite does
not state are free values (log entry 8). An unreadable word 0 hides the tail index from all but the sweep, which came by it. -/
def State.poisonHead (s : State) (x : Nat) (r : FlowRead) (scrub : Bool) : State :=
  let h := s.headAt x
  match r.ecc with
  | .head =>
    let (n, s) := s.free
    let s := (s.setHead x (setFld h 0 64 (7 + n % 2 * 8 + n / 2 % 2048 * 32 + Hd.noTail * 2 ^ 16))).uncacheHead x
    (s.stackEvent (headOffset x) true scrub).poisonEvent 0 x (if scrub then Hd.tail h else Hd.noTail)
  | .key =>
    let s := (s.setHead x (setFld h 1 2 3)).uncacheHead x
    (s.stackEvent (headOffset x) true scrub).poisonEvent 1 x (Hd.tail h)
  | .verdict =>
    let s := (s.setHead x (setFld h 1 1 1)).uncacheHead x
    (s.stackEvent (headOffset x) true scrub).poisonEvent 0 x (Hd.tail h)
  | .tail => (s.stackEvent (tailOffset (Hd.tail h)) true scrub).poisonTail x
  | .corrected => s.stackEvent (if r.inTail && Hd.valid h then tailOffset (Hd.tail h) else headOffset x) false scrub
  | .good => s

/-- What error correction found in the records that a command or an insert reads, those of `slots` (R133). -/
def State.meetWords (s : State) (found : List FlowRead) (slots : List Nat) : State :=
  found.foldl (fun s r =>
    match r.slot with
    | some x => if slots.contains x then s.poisonHead x r false else s
    | none => s) s

/-! ### INSERT (05 R138) -/

/-- Is a key one that Table 5.9 code 0x04 refuses: an undefined type, or a bit set that Table 5.3 gives as 0? -/
def Ky.bad (k : FlowKey) : Bool :=
  let f (lo n : Nat) := bits k.toNat (lo - 64) n != 0
  let kt := Ky.ktype k
  kt == 0 || kt > 5 || f 368 3 || f 64 8
    || ((kt == 1 || kt == 4) && (f 232 96 || f 104 96))
    || ((kt == 3 || kt == 4 || kt == 5) && f 328 32)
    || (kt == 3 && (f 360 8 || f 72 132))

/-- Is a hardware admission of the key pending? -/
def State.hwPending (s : State) (k : FlowKey) : Bool :=
  match s.findPat k with
  | some (_, p) => p.tail.isSome
  | none => false

/-- Microseconds of domain 0 modulo 2^40, as tails hold them. -/
def State.us40 (s : State) : Nat := s.us0 % 2 ^ 40

/-- Run an INSERT: it waits for a pending hardware insert of its key; it replaces the RW fields of a record that exists, or
places a new one. -/
def State.runInsert (s : State) (j : FlowJob) (initTail : Bool) (origin : Nat) : State :=
  let h := j.head
  let k := Hd.key h
  if s.hwPending k then { s with flow.work := .insert j }
  else
    let s := { s with flow.work := .none }
    let s := match s.findHead k with
      | some (x, _) => s.finishMove x
      | none => s
    match s.findHead k with
    | some (x, old) => s.replaceRecord x old h (if initTail then some j.tail else none)
    | none =>
      match s.drawTail with
      | none => s.flowDone 2
      | some (t, s) =>
        let now := s.us40
        let v := if initTail then mergeBits Tl.rwMask 0 j.tail else setFld (setFld (0 : BitVec 512) 384 40 now) 344 40 now
        let s := if initTail then { s with flow.meterNew := tdel s.flow.meterNew t } else s
        let i : Insert := {
          key := k, head := setFld (mergeBits Hd.rwMask 0 h) 395 2 origin, tail := t, init := v, initTail, command := true }
        let s := { s with flow.inserts := s.flow.inserts ++ [i] }.noteFlight 0
        if s.insertServed i then s.insertTurn i else s

/-- An INSERT that waited goes on once no hardware insert of its key is pending. -/
def State.resumeInsert (s : State) : State :=
  match s.flow.work with
  | .insert j =>
    match j.cmd with
    | .insert i o => if s.hwPending (Hd.key j.head) then s else s.runInsert j i o
    | _ => s
  | _ => s

/-! ### Commands of the placement engine -/

/-- JUDGE_DEADLINE_EXPIRY: a Judge-pending entry past its deadline is dropped with its gathered values (R125). -/
def execJudgeDeadlineExpiry (t : Nat) (key : BitVec 320) (s : State) : Result :=
  s.run t fun s =>
    match s.flow.pat.find? fun e => e.2.key == key with
    | some (i, p) =>
      if p.tail.isNone && p.deadline.any (fun d => decide (d ≤ s.now)) then
        let kept := s.flow.deltas.filter fun (d : Delta) => d.loc != .judge key
        { s.dropPat i with flow.deltas := kept }
      else s
    | none => s

/-- ADMISSION_TOKEN_REFILL: the bucket fills for the time since its latest refill, up to its depth (R124). A token is
10^12 units, so a rate per second is a rate per picosecond. -/
def execAdmissionTokenRefill (t : Nat) (s : State) : Result :=
  s.run t fun s =>
    let rate := s.num 0x3002 1
    let depth := s.num 0x3002 2 * 10 ^ 12
    { s with flow := { s.flow with
        tokens := min depth (s.flow.tokens + rate * (s.now - s.flow.refillAt)), refillAt := s.now } }

end Sys2Proof.Machine
end

