-- ==== Sys2Proof/Machine/FlowActions.lean ====
section
/-! DEFINITION. The flow actions of one frame: connection tracking, meters, balancing, translation and reverse resolution
(06 R143 to R163). -/
namespace Sys2Proof.Machine

/-! ### Action entries (06 Table 6.3) -/

/-- An action table entry. -/
structure Action where
  tcEn : Bool
  tc : Nat
  dscp : Option Nat
  natIdx : Nat
  natMode : Nat
  lbGroup : Nat
  lbEn : Bool
  meter : Nat
  ctMode : Nat
  latEn : Bool
  stream : Option Nat
  mirror : Option Nat
  replicate : Nat
  deriving DecidableEq, Repr

def actionOf (w : Nat) : Action :=
  { tcEn := bit w 101, tc := bits w 102 3, dscp := if bit w 94 then some (bits w 95 6) else none
    natIdx := bits w 86 8, natMode := bits w 83 3, lbGroup := bits w 71 12, lbEn := bit w 70, meter := bits w 58 12
    ctMode := bits w 56 2, latEn := bit w 55, stream := if bit w 39 then some (bits w 40 15) else none
    mirror := if bit w 34 then some (bits w 35 4) else none, replicate := bits w 0 34 }

/-- The entry of an ACTION index; above 65,535 it is entry 0 (R146). -/
def State.action (s : State) (a : Nat) : Action := actionOf (s.blk 0x3100 0 (32 * (if a > 65535 then 0 else a)) 32)

/-! ### The provisional view (06 R165) -/

/-- The settled tail with every pending update: its counts and time, its latch, and its transition unless a later one has settled;
the buckets are the provisional ones. -/
def State.view (s : State) (t : Nat) : BitVec 512 :=
  let v := (s.deltasOn (.tail t)).foldl (fun v d =>
    let v := if d.counts then countFrame v d.len d.seen else v
    let v := if d.meter && d.latch then setFld v 343 1 1 else v
    match d.ct with
    | some (c, a) => if d.superseded then v else setFld (setFld v 264 8 c) 232 32 a
    | none => v) (s.tailVal t)
  let b := s.bucket t
  setFld (setFld (setFld v 318 25 b.c) 292 26 b.e) 272 20 b.t

/-! ### Connection tracking (06 R160, Table 6.8) -/

/-- What tracking sees of a frame. -/
structure CtFrame where
  tcp : Bool
  flags : Nat
  laterFragment : Bool
  reverse : Bool
  deriving DecidableEq, Repr

def CtFrame.fin (f : CtFrame) : Bool := f.tcp && bit f.flags 0
def CtFrame.syn (f : CtFrame) : Bool := f.tcp && bit f.flags 1
def CtFrame.rst (f : CtFrame) : Bool := f.tcp && bit f.flags 2
def CtFrame.ack (f : CtFrame) : Bool := f.tcp && bit f.flags 4

/-- The next CT_STATE and CT_AUX of a valid frame, or none for an invalid one. Two points that Table 6.8 leaves open are DESIGN
CHOICES (log entry 85): a later TCP fragment in state NONE, which shows no flags, follows the row's other TCP; a TCP frame
of an L2 record that is in UDP_NEW or UDP_REPLIED moves as any frame there. -/
def ctStep (mode ct aux : Nat) (f : CtFrame) : Option (Nat × Nat) :=
  let mark := b1 f.reverse * 2 ^ 31
  if ct = 0 then
    if !f.tcp then some (0x10, mark)
    else if f.syn && !f.ack then some (1, mark)
    else if mode = 1 then some (3, mark)
    else none
  else if f.laterFragment then some (ct, aux)
  else
    let o := bit aux 31 == f.reverse
    let own := if o then 30 else 29
    let other := if o then 29 else 30
    let saw (i : Nat) := setBits aux i 1 1
    let reopen := if o && f.syn && !f.ack then some (1, setBits aux 29 2 0) else none
    if 0x10 ≤ ct then
      if ct = 0x10 then some (if o then 0x10 else 0x11, aux)
      else if ct = 0x11 then some (0x11, aux)
      else none
    else if f.rst && decide (ct ≤ 7) then some (7, aux)
    else match ct with
      | 1 => if o && f.syn then some (1, aux) else if !o && f.syn && f.ack then some (2, aux) else none
      | 2 =>
        if (!o && f.syn && f.ack) || (o && f.syn) then some (2, aux)
        else if o && f.ack then some (3, aux)
        else none
      | 3 => if f.syn then none else if f.fin then some (4, saw own) else some (3, aux)
      | 4 => if f.syn then none else if f.fin && bit aux other then some (5, saw own) else some (4, aux)
      | 5 => if f.fin then some (5, aux) else if f.ack then some (6, aux) else none
      | 6 => if f.ack || f.fin then some (6, aux) else reopen
      | 7 => reopen
      | _ => none

/-! ### Meters (06 R158, Table 6.7) -/

/-- A meter profile. -/
structure Profile where
  colourAware : Bool
  yellowDei : Bool
  mafr : Bool
  dropYellow : Bool
  coupling : Bool
  kind : Nat
  ebs : Nat
  cbs : Nat
  eir : Nat
  cir : Nat
  deriving DecidableEq, Repr

def profileOf (w : Nat) : Profile :=
  { colourAware := bit w 120, yellowDei := bit w 119, mafr := bit w 118, dropYellow := bit w 117, coupling := bit w 116
    kind := bits w 114 2, ebs := bits w 89 25, cbs := bits w 64 25, eir := bits w 32 32, cir := bits w 0 32 }

def State.profile (s : State) (m : Nat) : Profile := profileOf (s.blk 0x3200 0 (32 * m) 32)

/-- The buckets of a record. -/
structure Meter where
  c : Nat
  e : Nat
  t : Nat
  latch : Bool
  deriving DecidableEq, Repr

def meterOf (v : BitVec 512) : Meter := { c := fld v 318 25, e := fld v 292 26, t := fld v 272 20, latch := bit v.toNat 343 }

/-- The refill of a frame at `now` µs; `idle`: µs since LAST_SEEN; a new record starts full. Under trTCM no latch counts, and one
that stands from the time of another TYPE stays stored, since only software clears it (R158 against R159: DESIGN CHOICE, log
entry 95). -/
def Meter.refill (m : Meter) (p : Profile) (fresh : Bool) (idle now : Nat) : Meter :=
  let full := { m with c := p.cbs, e := p.ebs, t := now % 2 ^ 20 }
  if fresh then { full with latch := false }
  else if 2 ^ 20 ≤ idle then full
  else
    let dt := (now + 2 ^ 20 - m.t) % 2 ^ 20
    let ac := dt * p.cir / 1000
    let ae := dt * p.eir / 1000
    let t := if ac > 0 ∨ ae > 0 then now % 2 ^ 20 else m.t
    if p.kind = 2 then
      let c := m.c + ac
      let ae := if c > p.cbs ∧ p.coupling then ae + (c - p.cbs) else ae
      { m with c := min c p.cbs, e := min (m.e + ae) p.ebs, t }
    else { m with c := min (m.c + ac) p.cbs, e := min (m.e + ae) p.ebs, t, latch := false }

inductive Colour where
  | green | yellow | red
  deriving DecidableEq, Repr

/-- The test of a frame of `len` bytes: colour and debits. -/
def Meter.test (m : Meter) (p : Profile) (yellowIn : Bool) (len : Nat) : Colour × Nat × Nat :=
  if p.kind = 2 then
    if m.latch then (.red, 0, 0)
    else if !yellowIn && decide (len ≤ m.c) then (.green, len, 0)
    else if len ≤ m.e then (.yellow, 0, len)
    else (.red, 0, 0)
  else if len > m.e then (.red, 0, 0)
  else if yellowIn || decide (len > m.c) then (.yellow, 0, len)
  else (.green, len, len)

/-! ### Balancing (06 R148, R149) -/

def groupIdx (g : Nat) : Nat := 0x4000 + g

/-- A balancing member. -/
structure Member where
  state : Nat
  port : Nat
  dmac : Option Nat
  vid : Option Nat
  deriving DecidableEq, Repr

def State.member (s : State) (g m : Nat) : Member :=
  let w := s.blk (groupIdx g) 2 (16 * m) 16
  { state := bits w 0 2, port := bits w 4 6, dmac := if bit w 58 then some (bits w 10 48) else none
    vid := if bit w 59 then some (bits w 60 12) else none }

/-- The member a record's key chooses: its bucket, or the first of the seven after it, whose member is active. -/
def State.chooseMember (s : State) (g : Nat) (k : FlowKey) : Option Nat :=
  let d := s.num (groupIdx g) 1
  if !bit d 40 then none else
  let n := 2 ^ bits d 32 5
  let i := crc32cSeed (s.num 0x3120 1) (keyBytes k) % n
  let at_ (j : Nat) := s.blk (groupIdx g) 3 (2 * ((i + j) % n)) 2
  ((List.range 8).find? fun j => bit (at_ j) 15 && (s.member g (at_ j % 256)).state == 1).map fun j => at_ j % 256

/-- NOMEMBER of a group. -/
def State.noMember (s : State) (g : Nat) : Nat := bits (s.num (groupIdx g) 1) 38 2

/-! ### Static maps and pools (06 R155, R157, Table 6.5) -/

/-- A static map. -/
structure NatMap where
  valid : Bool
  v6 : Bool
  len : Nat
  inZone : Nat
  extZone : Nat
  ext : Nat
  inside : Nat
  deriving DecidableEq, Repr

def mapOf (w : Nat) : NatMap :=
  { valid := bit w 0, v6 := bit w 1, len := bits w 16 8, inZone := bits w 32 8, extZone := bits w 40 8
    ext := bits w 128 128, inside := bits w 256 128 }
def State.natMap (s : State) (i : Nat) : NatMap := mapOf (s.blk 0x3110 0 (48 * i) 48)

def NatMap.width (m : NatMap) : Nat := if m.v6 then 128 else 32
/-- Does an address lie in the prefix? -/
def NatMap.covers (m : NatMap) (prefix_ a : Nat) : Bool :=
  let h := 2 ^ (m.width - m.len)
  a % 2 ^ m.width / h == prefix_ % 2 ^ m.width / h
/-- The prefix with the host bits of an address. -/
def NatMap.onto (m : NatMap) (prefix_ a : Nat) : Nat :=
  let h := 2 ^ (m.width - m.len)
  prefix_ % 2 ^ m.width / h * h + a % h
/-- Is a layer of the map's family? -/
def NatMap.family (m : NatMap) (l : Layer) : Bool := l.ip && l.l3 == (if m.v6 then 2 else 1)

/-- What reverse resolution finds for a frame (R157). -/
inductive Reverse where
  | none
  | map (r : Resolved)
  | pool (r : Resolved)
  /-- a pool covers the destination, and no port in use answers -/
  | unresolved
  /-- a pool covers the destination of a frame that is neither TCP nor UDP -/
  | other
  deriving DecidableEq, Repr

def State.natOwner (s : State) (slot block : Nat) : Nat := tget s.flow.owners (ownerKey slot block) 0

/-- Reverse resolution of the keyed layer in a zone. -/
def State.reverse (s : State) (l : Layer) (zone : Nat) : Reverse :=
  match (List.range 256).find? fun i =>
      let m := s.natMap i
      m.valid && m.extZone == zone && m.family l && m.covers m.ext l.dip with
  | some i =>
    let m := s.natMap i
    .map { dip := m.onto m.inside l.dip, zone := m.inZone }
  | none =>
    if !(l.ip && l.l3 == 1) then .none else
    match (List.range 256).find? fun i =>
        let p := s.pool i
        p.valid && p.extZone == zone && decide (p.addrBase ≤ l.dip) && decide (l.dip < p.addrBase + p.count) with
    | none => .none
    | some i =>
      if !(l.proto == 6 || l.proto == 17) then .other
      -- a later fragment shows no port that could answer
      else if l.l4off = 0 then .unresolved else
      let p := s.pool i
      let b := s.natOwner (p.slotBase + (l.dip - p.addrBase)) (l.dport / 256)
      let v := s.binding b
      let k := l.dport % 256
      if b != 0 && Bd.valid v && Bd.port v k then
        .pool { dip := Bd.inside v, dport := some (tget s.flow.ports (b * 256 + k) 0).toNat, zone := Bd.zone v
                ref := some (b * 256 + k) }
      else .unresolved

def Reverse.resolved : Reverse → Option Resolved
  | .map r => some r
  | .pool r => some r
  | .none => Option.none
  | .unresolved => Option.none
  | .other => Option.none

/-! ### The key (05 R114, Table 5.3) -/

/-- The flow key of a frame under a policy entry, and its reverse mark; none when the layer lacks the header. -/
def flowKey (e : BitVec 128) (v : Frame) (r : Option Resolved) : Option (FlowKey × Bool) :=
  let l := (v.p.layer (Pol.inner e)).2
  let zone := match r with | some x => x.zone | none => v.zone
  let build (ty proto : Nat) (src dst : Nat × Nat) (wide : Bool) (low : Nat) : FlowKey × Bool :=
    let swap := Pol.bidir e && (decide (dst.1 < src.1) || (src.1 == dst.1 && decide (dst.2 < src.2)))
    let (a, b) := if swap then (dst, src) else (src, dst)
    let addr := if wide then a.1 * 2 ^ 136 + b.1 * 2 ^ 8 else a.1 * 2 ^ 216 + b.1 * 2 ^ 168
    (BitVec.ofNat 320 (zone * 2 ^ 312 + ty * 2 ^ 308 + b1 swap * 2 ^ 307 + proto * 2 ^ 296 + a.2 * 2 ^ 280 + b.2 * 2 ^ 264
      + addr + low), swap)
  if Pol.ktype e = 3 then
    if l.eth then some (build 3 0 (v.p.smac, 0) (v.p.dmac, 0) false (v.vid * 2 ^ 156 + l.etype * 2 ^ 140)) else none
  else if l.l3 = 1 ∨ l.l3 = 2 then
    let dip := match r with | some x => x.dip | none => l.dip
    let dport := match r.bind Resolved.dport with | some x => x | none => l.dport
    let five := Pol.ktype e == 1
    let ty := (if five then 0 else 3) + l.l3
    some (build ty l.proto (l.sip, if five then l.sport else 0) (dip, if five then dport else 0) true 0)
  else none

/-! ### What the actions decide -/

/-- Where a frame goes once the flow stage is done with it. -/
inductive Fate where
  /-- the decision made without the flow stage: the rule's REDIR, or the FDB decision -/
  | forward
  /-- the FDB decision alone -/
  | fdb
  | ports (ps : List Nat)
  /-- to P32, for a reason of Table 10.13 -/
  | host (reason : Nat)
  /-- dropped, with the sample's reason of Table 16.4 -/
  | drop (reason : Nat)
  deriving DecidableEq, Repr

/-- The outcome of the actions: fate, class override, mirror, header changes and the tail update. -/
structure Handling where
  fate : Fate := .forward
  cls : Option Nat := none
  mirror : Option Nat := none
  natSrc : Option (Nat × Option Nat) := none
  dscp : Option Nat := none
  dmac : Option Nat := none
  vid : Option Nat := none
  dei : Bool := false
  handle : Option Nat := none
  delta : Option Delta := none
  latency : Bool := false
  deriving DecidableEq, Repr

/-- Reason codes of Table 10.13 and drop reasons of Table 16.4 used by the flow stage. -/
def hostFlow : Nat := 4
def hostPendFail : Nat := 6
def hostPoison : Nat := 7
def hostMember : Nat := 8
def dropFlow : Nat := 3
def dropPoison : Nat := 4
def dropAdmission : Nat := 5

/-- The PEND or FAIL verdict of a policy: forward without state, drop, or to P32. -/
def pendFate (n : Nat) : Fate := if n = 1 then .drop dropAdmission else if n = 2 then .host hostPendFail else .forward

/-- The fate of a redirect to a port. -/
def redirectFate (p reason : Nat) : Fate := if p = hostPort then .host reason else .ports [p]

/-- A translation failure event with its action index. -/
def State.translationFailure (s : State) (flag a : Nat) : State := s.raise 0x19A (2 ^ flag) (capture [(4, a)])

/-- What translation decides for a frame of a record (R151 to R155): pass, drop, pend, or a new source. -/
inductive Translated where
  | pass | fail (flag : Nat) | pend | source (a : Nat) (port : Option Nat)
  deriving DecidableEq, Repr

/-- Translate a frame of a record with NAT_REF `ref`, in zone `zone`; `waiting`: its key is in the pending-admission
table. A frame that reverse resolution restored travels inward and keeps its source. -/
def State.translate (s : State) (act : Action) (v : Frame) (l : Layer) (ref : Nat) (waiting : Bool) : Translated :=
  let zone := match v.resolved with | some r => r.zone | none => v.zone
  if act.natMode = 1 then
    let m := s.natMap act.natIdx
    if !m.valid || !m.family l then .fail 2
    else if m.covers m.inside l.sip && m.inZone == zone then .source (m.onto m.ext l.sip) none
    else .pass
  else if act.natMode = 2 then
    if !(l.ip && l.l3 == 1 && (l.proto == 6 || l.proto == 17)) then .fail 0
    else if l.frag = 2 then .fail 1
    else if v.resolved.isSome then .pass
    else if ref < 256 || waiting then .pend
    else
      let b := s.binding (ref / 256)
      if Bd.inside b == l.sip && Bd.zone b == zone && (tget s.flow.ports ref 0).toNat == l.sport then
        let p := s.pool (Bd.pool b)
        .source (p.addrBase + (Bd.slot b - p.slotBase)) (some (256 * Bd.block b + ref % 256))
      else .pass
  else .pass

/-- Write a chosen member into the tail (R149): a tail that was pinned is repinned. -/
def State.pinMember (s : State) (t m : Nat) : State :=
  let v := s.tailVal t
  let s := if (Tl.pinned v).isSome then s.count Num.repins else s
  s.setTail t (setFld (setFld v 205 1 1) 197 8 m)

/-- The actions of a frame on a record (R147), against tail `t`: the state after counters and pins, and the handling. The record
is named by its head word: VERDICT, REDIR, ACTION, POLICY and key. Of a frame that a PEND verdict forwards without state nothing
stays but its own counts: no flow action applies to it, and no tail is updated (R154, 05 Table 5.2). The action table is the one
committed when the verdict is given, for a frame that entered before the commit too, of which R146 says nothing (DESIGN CHOICE,
log entry 85). -/
def State.flowActions (s : State) (f : Nat) (v : Frame) (h : BitVec 512) (pol : BitVec 128) (t : Nat) (waiting : Bool) :
    Handling × State :=
  let s := if Hd.action h > 65535 then s.count Num.actionRange else s
  let before := s
  let act := s.action (Hd.action h)
  let l := (v.p.layer v.inner).2
  let view := s.view t
  let len := v.assumedLen
  let now := s.us40
  let d : Delta := { frame := f, loc := .tail t, len, seen := now }
  -- connection tracking
  let uni := act.ctMode != 0 && !Pol.bidir pol
  let s := if uni then s.count Num.unidirectional else s
  let mode := if uni then 0 else act.ctMode
  let cf : CtFrame := { tcp := l.proto == 6, flags := l.flags, laterFragment := l.frag == 2, reverse := v.reverse }
  let step := ctStep mode (Tl.ct view) (Tl.aux view) cf
  let ctOk := mode == 0 || step.isSome || mode == 1
  let d := if mode = 0 then d else { d with ct := step }
  let s := if mode != 0 && step.isNone then
      s.count (if mode = 2 then Num.ctInvalidDropped else Num.ctInvalidPassed)
    else if mode = 1 && Tl.ct view == 0 && step.any (fun x => x.1 == 3) then s.count Num.pickups
    else s
  -- the meter
  let p := s.profile act.meter
  let metered := act.meter != 0 && p.kind != 0
  let m0 := meterOf view
  let m1 := m0.refill p (tget s.flow.meterNew t false) ((now + 2 ^ 40 - Tl.lastSeen view) % 2 ^ 40) now
  let (colour, dc, de) := m1.test p (p.colourAware && v.p.dei == 1) len
  let tested := metered && ctOk
  let dropped := tested && (colour == .red || (colour == .yellow && p.dropYellow))
  let s := if tested then
      s.count (match colour with | .green => Num.green | .yellow => Num.yellow | .red => Num.red)
    else s
  let s := if dropped then s.count Num.meterDrops else s
  let d := if metered then
      { d with
        meter := true, depthC := p.cbs, depthE := p.ebs, refillC := (m1.c : Int) - m0.c, refillE := (m1.e : Int) - m0.e
        meterT := m1.t, debitC := if tested && !dropped then dc else 0, debitE := if tested && !dropped then de else 0
        latch := tested && p.kind == 2 && p.mafr && colour == .red }
    else d
  let ok := ctOk && !dropped
  -- balancing
  let verdict := Hd.verdict h
  let lb := ok && act.lbEn && verdict != 4
  let g := act.lbGroup
  let kept := match Tl.pinned view with
    | some m => if (s.member g m).state == 1 || (s.member g m).state == 2 then some m else none
    | none => none
  let chosen := match kept with | some m => some m | none => s.chooseMember g (Hd.key h)
  let (d, s) := if !lb then (d, s) else
    match kept, chosen with
    | some _, _ => (d, s)
    | none, some m => ({ d with pin := some m }, s.pinMember t m)
    | none, none => (d, (s.count Num.noMember).raise 0x19B 1 (capture [(2, g)]))
  let member := (if lb then chosen else none).map fun m => s.member g m
  -- translation
  let tr := if ok && act.natMode != 0 then s.translate act v l (Tl.nat (s.tailVal t)) waiting else .pass
  let changes := verdict == 3 || verdict == 4
  let (failed, s) := match tr with
    | .fail n => (true, (s.count Num.translationFailures).translationFailure n (Hd.action h))
    | _ => (false, s)
  let mismatch := match v.resolved.bind Resolved.ref with
    | some r => Tl.nat (s.tailVal t) != r
    | none => false
  let s := if mismatch && ok then (s.count Num.bindingMismatches).translationFailure 3 (Hd.action h) else s
  let pend := ok && !failed && !mismatch && changes && tr == .pend
  let s := if pend then s.count Num.translationPending else s
  let src := match tr with
    | .source a n => if changes then some (a, n) else none
    | _ => none
  let s := if src.isSome then s.count Num.translations else s
  -- the verdict
  let fate : Fate :=
    if !ok then .drop dropFlow
    else if failed || mismatch then .drop dropAdmission
    else if pend then pendFate (Pol.pend pol)
    else match verdict with
      | 1 => .drop dropFlow
      | 2 => redirectFate (Hd.redir h) hostFlow
      | 4 => .ports (below 34 fun q => bit act.replicate q && q != v.port)
      | _ =>
        if !lb then .forward
        else match member with
          | some x => redirectFate x.port hostMember
          | none =>
            match s.noMember g with
            | 0 => .drop dropFlow
            | 1 => .fdb
            | _ => .host hostMember
  let gone := match fate with | .drop _ => true | _ => false
  let d := if gone then { d with debitC := 0, debitE := 0 } else d
  let stateless := pend && fate == .forward
  -- a frame whose update is not made leaves the meter of a new record full for the next one
  let s := if stateless then before.count Num.translationPending
    else if metered then { s with flow.meterNew := tdel s.flow.meterNew t }
    else s
  let rewrite := changes && !gone && !pend
  ({ fate
     cls := if act.tcEn && !stateless then some act.tc else none
     mirror := if stateless then none else act.mirror
     natSrc := if rewrite then src else none
     dscp := if rewrite then act.dscp else none
     dmac := if rewrite && verdict == 3 then member.bind Member.dmac else none
     vid := if rewrite && verdict == 3 then member.bind Member.vid else none
     dei := rewrite && tested && colour == .yellow && p.yellowDei
     handle := if stateless then none else Tl.stream (s.tailVal t)
     delta := if stateless then none else some d
     latency := act.latEn && !stateless }, s)

end Sys2Proof.Machine
end

