-- ==== Sys2Proof/Machine/FlowStage.lean ====
section
/-! DEFINITION. The release of a frame to the FDB and flow stages, the flow lookup, admission, the verdict, and the targets
that are judged (03 R70; 04 R89 to R92; 05 R112 to R126; 06 R144 to R169). -/
namespace Sys2Proof.Machine

/-! ### The FDB decision (04 R89 to R91) -/

/-- Members of a VID, and its zone (03 Table 3.4). -/
def State.vlanMembers (s : State) (vid : Nat) : Nat := s.blk 0x2200 0 (8 * vid) 8 % 2 ^ 34
def State.vlanZone (s : State) (vid : Nat) : Nat := bits (s.blk 0x2200 0 (8 * vid) 8) 34 8

def isGroup (mac : Nat) : Bool := bit mac 40

/-- The FDB result of a frame, as a mask of ports (R89). -/
def State.fdbDecide (s : State) (v : Frame) : Nat × State :=
  let i := v.port
  let members := s.vlanMembers v.vid
  let flood := setBits members i 1 0
  let sa := (s.fdb.find v.vid v.p.smac).map Prod.snd
  if sa.any FdbE.saDrop then (0, s.count (Num.saDrops i)) else
  match (s.fdb.find v.vid v.p.dmac).map Prod.snd with
  | some e =>
    if FdbE.daDrop e then (0, s.count (Num.daDrops i))
    else if FdbE.multi e then (setBits (FdbE.dest e &&& members) i 1 0, s)
    else if FdbE.port e = i then (0, s.count (Num.samePortDrops i))
    else if !bit members (FdbE.port e) then (0, s.count (Num.egressFilterDrops i))
    else (2 ^ FdbE.port e, s)
  | none =>
    let u := s.blk 0x2401 0 v.vid 1
    let a := if v.p.dmac = 2 ^ 48 - 1 then bits u 4 2 else if isGroup v.p.dmac then bits u 2 2 else bits u 0 2
    if a = 1 then (0, s.count (Num.unknownDrops i))
    else if a = 2 then (2 ^ hostPort, s)
    else (flood, s)

/-- The slots that a lookup of a key reads (04 R85): its two buckets, and the CAM. -/
def State.fdbReads (s : State) (vid mac i : Nat) : Bool :=
  decide (fdbCam ≤ i ∧ i < fdbEnd) || i / 8 == s.fdbBucket 0 vid mac || i / 8 == 65536 + s.fdbBucket 1 vid mac

/-- The lookups of a frame's addresses meet a corrected word, or an uncorrectable one: that slot is a miss from here on, and
excluded from learning (01 Table 1.7). -/
def State.fdbWords (s : State) (v : Frame) (words : List (Nat × Bool)) : State :=
  words.foldl (fun s w =>
    if !(s.fdbReads v.vid v.p.smac w.1 || s.fdbReads v.vid v.p.dmac w.1) || s.fdb.excl w.1 then s
    else (if w.2 then s.fdbExclude w.1 else s).memEvent 1 w.2 false (capture [(4, w.1)])) s

/-- The learn request and the age refresh that a frame gives rise to once it has ended well (R90, R96). A pinned entry with MULTI
is taken for a DEST other than the ingress port whatever its mask holds (log entry 94). -/
def State.learnOf (s : State) (v : Frame) : Option LearnReq × Option LearnReq :=
  let r : LearnReq := { vid := v.vid, mac := v.p.smac, port := v.port, slice := v.slice }
  if s.learnMode v.port = 0 || actLearnDis v.action || isGroup v.p.smac || v.p.smac == 0 then (none, none) else
  match (s.fdb.find v.vid v.p.smac).map Prod.snd with
  | none => (some r, none)
  | some e =>
    if !FdbE.multi e && FdbE.port e == v.port then (none, some r)
    else if FdbE.multi e && !FdbE.pin e then (none, none)
    else (some r, none)

/-- A frame that has ended well and has been looked up learns and refreshes, once. -/
def State.learnNow (s : State) (f : Nat) : State :=
  match s.frame f with
  | none => s
  | some v =>
    if v.endAt.isNone || v.bad.isSome then s else
    let s := s.setFrame f { v with learn := none, refresh := none }
    let s := match v.learn with | some r => s.learnRequest r | none => s
    match v.refresh with | some r => s.ageRefresh r.vid r.mac r.port | none => s

/-! ### Targets (06 R144, R145; 07 R184; 09 R250) -/

/-- The decision made without the flow stage: the rule's REDIR under its VERDICT 2, else the FDB decision. -/
def Frame.plain (v : Frame) : List (Nat × Nat) :=
  if actVerdict v.action = 2 then [(actRedir v.action, 3)]
  else (below 34 fun q => bit v.fdb q).map fun q => (q, 1)

/-- Ports of a fate, with the reason of a copy to P32. -/
def Fate.ports_ (v : Frame) : Fate → List (Nat × Nat)
  | .forward => v.plain
  | .fdb => (below 34 fun q => bit v.fdb q).map fun q => (q, 1)
  | .ports ps => ps.map fun q => (q, hostFlow)
  | .host r => [(hostPort, r)]
  | .drop _ => []

/-- Pairs (R250): a copy to one port of a pair implies one to its partner; a frame received on one port of a pair is not sent
to its partner by this rule, a copy back to its own port implying none, and one from a PRP port never is. -/
def State.withPairs (s : State) (v : Frame) (ps : List (Nat × Nat)) : List (Nat × Nat) :=
  let own := s.redPartner v.port
  let ps := ps.filter fun e => !(e.1 == own && isPrp (s.redMode v.port) && e.1 != v.port)
  let extra := ps.filterMap fun e =>
    let q := s.redPartner e.1
    if s.redMode e.1 ≠ 0 ∧ q < 32 ∧ q ≠ v.port ∧ e.1 ≠ v.port ∧ e.1 ≠ own ∧ ¬ ps.any (fun x => x.1 == q) then some (q, e.2) else none
  ps ++ extra.eraseDups

/-- The targets of a handling, mirror copies apart. -/
def State.targets (s : State) (v : Frame) (fate : Fate) (cls : Option Nat) : List Target :=
  let ps := s.withPairs v (fate.ports_ v)
  let ps := if actVerdict v.action = 3 && !(ps.any fun e => e.1 == hostPort) then ps ++ [(hostPort, 2)] else ps
  ps.map fun e => { port := e.1, cls := cls.getD v.cls, reason := if e.1 = hostPort then e.2 else 0 }

/-- Judge a frame under a handling: its header changes are fixed, its update is posted, its copies are judged. -/
def State.conclude (s : State) (f : Nat) (h : Handling) : State :=
  match s.frame f with
  | none => s
  | some v =>
    let s := s.setFrame f { v with
      natSrc := h.natSrc, dscp := h.dscp, dmac := h.dmac, vidOut := h.vid, markDei := h.dei, handle := h.handle
      entry := match h.handle with | some n => s.blk 0x7000 0 (8 * n) 8 | none => 0
      latency := h.latency && h.delta.isSome, verdictIn := true }
    let s := match h.delta with | some d => s.postDelta f d | none => s
    let ts := s.targets v h.fate h.cls
    let s := match h.fate with
      | .drop r => s.sampleReason f r
      | _ => if ts.isEmpty then s.sampleReason f 2 else s
    s.judge f ts ((actMirror v.action).toList ++ h.mirror.toList)

/-- A frame that ends in the memory controller's error path: no announcement is made (07 R192). -/
def State.errorPath (s : State) (f : Nat) : State := ((s.sampleReason f dropPoison).onSample f fun _ x => { x with flow := none }).frameGone f

/-! ### False starts (06 R168, R169) -/

def fsVerdict : Nat := 0
def fsLate : Nat := 1
def fsFcs : Nat := 2

/-- Does the final handling of a frame that runs ahead agree with its provisional verdict? -/
def State.agrees (s : State) (v : Frame) (h : Handling) : Bool :=
  s.targets v h.fate h.cls == s.targets v .forward none && h.mirror.isNone && h.natSrc.isNone && h.dscp.isNone
    && h.dmac.isNone && h.vid.isNone && !h.dei && h.handle.isNone

/-- The verdict of a frame judged to run ahead, of which nothing has been sent yet: it runs ahead no more (R167). Its copy goes on
where it agrees with the verdict, and gives way to the copies of the verdict otherwise, which follow no number of their own
(DESIGN CHOICE, log entry 96). -/
def State.concludeUnsent (s : State) (f : Nat) (v : Frame) (h : Handling) : State :=
  if s.agrees v h then
    let s := s.setFrame f { v with ahead := false, verdictIn := true, latency := h.latency && h.delta.isSome }
    match h.delta with
    | some d => s.postDelta f d
    | none => s
  else (s.retract f).conclude f h

/-- The verdict of a frame that ran ahead: it agrees, or the frame is a false start and counts as a dropped frame; no other copy
of a false start is made. -/
def State.concludeAhead (s : State) (f : Nat) (v : Frame) (h : Handling) : State :=
  if !v.started && v.stage == .stored then s.concludeUnsent f v h else
  let false_ := v.falseStart.isSome || !s.agrees v h
  let d := h.delta.map fun (d : Delta) => if false_ then { d with debitC := 0, debitE := 0, ct := none } else d
  let s := s.setFrame f { v with
    verdictIn := true, latency := h.latency && d.isSome
    falseStart := if false_ then some (v.falseStart.getD fsVerdict) else none }
  let s := if false_ then s.retractMirrors f else s
  let s := match d with | some d => s.postDelta f d | none => s
  if v.stage == .gone && v.endAt.isSome then (s.latencySettle f).dropFrame f else s

/-- A handling reaches a frame, running ahead or not. -/
def State.handled (s : State) (f : Nat) (v : Frame) (h : Handling) : State :=
  if v.ahead then s.concludeAhead f v h else s.conclude f h

/-! ### Records and admission (05 R118, R123 to R126, R133) -/

/-- The head that a pending admission's frames are handled by (R125). -/
def patHead (k : FlowKey) (policy : Nat) (e : BitVec 128) : BitVec 512 :=
  BitVec.ofNat 512 (policy * 2 ^ 6 + k.toNat * 2 ^ 64 + Pol.initVerdict e * 2 ^ 384 + Pol.initRedir e * 2 ^ 387
    + b1 (Pol.exports e) * 2 ^ 394 + Pol.initAction e * 2 ^ 400)

/-- Give a frame its handling on a live record. -/
def State.onRecord (s : State) (f : Nat) (v : Frame) (x : Nat) (h : BitVec 512) : State :=
  let t := Hd.tail h
  let v := { v with tail := some t }
  let s := s.setFrame f v
  let s := if Hd.state (s.headAt x) = 1 then s.setHead x (setFld (s.headAt x) 3 2 0) else s
  let (a, s) := s.flowActions f v h (s.policyFor v (Hd.policy h)) t false
  let s := if a.delta.isSome then ((s.touchTail t true).2).promote t (Hd.key h) x else s
  s.handled f v a

/-- A frame whose record was deleted after its head was read: it keeps its verdict, which rests on the head and the tail it
read, and its update is discarded as a late update (Table 5.6). -/
def State.onDeleted (s : State) (f : Nat) (v : Frame) (h : BitVec 512) : State :=
  let t := Hd.tail h
  let read := { s with flow.tails := tset 0 s.flow.tails t v.tailRead }
  let (a, s') := read.flowActions f v h (s.policyFor v (Hd.policy h)) t false
  let s' := { s' with flow := s.flow }
  (s'.count Num.lateUpdates).handled f v { a with delta := none, latency := false }

/-- A frame whose record could not be read (07 R192): it ends in the error path; one that runs ahead never gets a verdict. -/
def State.frameUnread (s : State) (f : Nat) (v : Frame) : State :=
  if v.ahead && !v.started && v.stage == .stored then (s.retract f).errorPath f
  else if v.ahead then
    let s := (s.setFrame f { v with verdictIn := true, falseStart := some fsLate }).retractMirrors f
    if v.stage == .gone && v.endAt.isSome then s.dropFrame f else s
  else s.errorPath f

/-- A frame that matches a poisoned head receives the poison verdict (R133, Table 1.7). -/
def State.onPoisoned (s : State) (f : Nat) (v : Frame) : State :=
  let s := s.count Num.poisonFrames
  match s.num 0x3002 3 with
  | 0 => if v.ahead && v.started then s.concludeAhead f v { fate := .drop dropPoison } else s.frameUnread f v
  | 2 => s.handled f v { fate := .host hostPoison }
  | _ => s.handled f v {}

/-- The verdict of a frame that found head `h` in slot `x`. -/
def State.onHead (s : State) (f : Nat) (v : Frame) (x : Nat) (h : BitVec 512) : State :=
  if Hd.poison h then s.onPoisoned f v
  else
    let live := match s.slotOfTail (Hd.tail h) with
      | some y => Hd.key (s.headAt y) == Hd.key h && Hd.valid (s.headAt y)
      | none => false
    if live then s.onRecord f v ((s.slotOfTail (Hd.tail h)).getD x) h else s.onDeleted f v h

/-- The update a Judge-pending entry takes from a frame: its bytes, at the time of its arrival (R125). -/
def judgeDelta (f : Nat) (v : Frame) (k : FlowKey) : Delta :=
  { frame := f, loc := .judge k, len := v.assumedLen, seen := v.tIn / 1000 % 2 ^ 40 }

/-- A frame under a pending admission, whose entry is `p` (R125). -/
def State.onPat (s : State) (f : Nat) (v : Frame) (p : Pat) (nat : Bool) : State :=
  match p.tail with
  | some t =>
    let v := { v with tail := some t }
    let s := s.setFrame f v
    let (a, s) := s.flowActions f v (patHead p.key p.policy p.entry) p.entry t true
    -- forwarded without state, the frame still holds the allocation of its admission until its end is known (06 R166 item 5)
    let d := match a.delta with
      | some d => some { d with nat }
      | none => if nat then some { frame := f, loc := .tail t, len := 0, seen := 0, counts := false, nat } else none
    s.handled f v { a with delta := d }
  | none =>
    s.handled f v { fate := pendFate (Pol.pend p.entry), delta := some (judgeDelta f v p.key) }

/-- The failure path (R126). -/
def State.onFailure (s : State) (f : Nat) (v : Frame) (policy : Nat) (e : BitVec 128) (r : Nat) : State :=
  (s.admissionFailed r policy).handled f v { fate := pendFate (Pol.fail e) }

/-- What a Judge exception reports of a frame. -/
def witness (f : Nat) (v : Frame) : Witness :=
  { frame := f, port := v.port, metaData := actMeta v.action, len := v.assumedLen, time := v.tIn, cls := v.cls, reverse := v.reverse
    bytes := v.bytes.take 128 }

/-- Admission by hardware (R123 item 7): a token, a tail, an entry of the table; then NAPT (06 R152), the verdict, the insert. A
frame that NAPT cannot translate, not IPv4 TCP or UDP or a later fragment, allocates nothing: its record is made with NAT_REF
0 (DESIGN CHOICE, log entry 95). -/
def State.admitHardware (s : State) (f : Nat) (v : Frame) (k : FlowKey) (policy : Nat) (e : BitVec 128) (i t : Nat) : State :=
  let act := s.action (Pol.initAction e)
  let now := s.us40
  let init := setFld (setFld (0 : BitVec 512) 384 40 now) 344 40 now
  let init := match act.stream with | some n => setFld (setFld init 108 1 1) 93 15 n | none => init
  let p : Pat := { key := k, policy, entry := e, tail := some t, value := init, first := witness f v }
  let s := (s.setPat i p).count Num.hwAdmissions
  let l := (v.p.layer (Pol.inner e)).2
  let zone := match v.resolved with | some r => r.zone | none => v.zone
  let napt := act.natMode == 2 && l.ip && l.l3 == 1 && (l.proto == 6 || l.proto == 17) && l.frag != 2
  match if napt then s.natAllocate zone act.natIdx l.sip l.sport else .inr (0, s) with
  | .inr (ref, s) =>
    let p := { p with value := setFld init 206 26 ref }
    let s := s.setPat i p
    let ins : Insert := { key := k, head := patHead k policy e, tail := t }
    ({ s with flow.inserts := s.flow.inserts ++ [ins] }.noteFlight 0).onPat f v p (ref ≠ 0)
  | .inl r =>
    let s := (s.count (Num.translationExceptions r)).raise 0x199 (2 ^ r) [byte act.natIdx]
    let s := s.admissionToJudge i p t (3 + r)
    match tfind s.flow.pat i with
    | some q => s.onPat f v q false
    | none => s.handled f v { fate := pendFate (Pol.fail e) }

/-- A miss (R123): the first outcome that applies. -/
def State.onMiss (s : State) (f : Nat) (v : Frame) (k : FlowKey) : State :=
  match s.findPat k with
  | some (_, p) => (s.count Num.patJoins).onPat f v p false
  | none =>
    let n := actPolicy v.action
    let e := s.policyFor v n
    -- admission has stopped (12 R316, R325)
    if !s.learningRuns then (s.count (Num.fenceDiscards v.port)).handled f v { fate := .drop dropAdmission }
    else if Pol.miss e = 2 then (s.countW (Num.unadmitted v.port)).handled f v { fate := pendFate (Pol.fail e) }
    else match s.freePat with
      | none => s.onFailure f v n e failPat
      | some i =>
        if Pol.miss e = 1 then
          match s.judgeFails with
          | some r => s.onFailure f v n e r
          | none =>
            let p : Pat := { key := k, policy := n, entry := e, first := witness f v
                             deadline := some (s.now + s.num 0x3002 4 * nsPs) }
            ((s.setPat i p).judgeException k n 1 i (witness f v)).onPat f v p false
        else if s.flow.tokens < 10 ^ 12 then s.onFailure f v n e failRate
        else match s.nextTail with
          | none => s.onFailure f v n e failNoTail
          | some _ =>
            match ({ s with flow.tokens := s.flow.tokens - 10 ^ 12 }).drawTail with
            | some (t, s) => s.admitHardware f v k n e i t
            | none => s

/-! ### Commands -/

/-- Does the frame wait for its flow verdict? -/
def Frame.awaits (v : Frame) : Bool := v.key.isSome && !v.verdictIn && (v.stage == .flow || v.ahead)

/-- The head whose word the lookup of a frame found bad: the one named, if the lookup reads its slot, else the record's own, else
the first home. -/
def State.badSlot (s : State) (v : Frame) (k : FlowKey) (r : FlowRead) : Nat :=
  let found := s.matchHead (s.policyFor v) k
  match r.slot with
  | some x => if (s.slotsRead found k).contains x then x else (found.map Prod.fst).getD ((s.homeSlots k).headD 0)
  | none => (found.map Prod.fst).getD ((s.homeSlots k).headD 0)

/-- The read of a frame met an uncorrectable word (R133): the head it stood in is poisoned. -/
def State.readFailed (s : State) (f : Nat) (v : Frame) (k : FlowKey) (r : FlowRead) : State :=
  (s.poisonHead (s.badSlot v k r) r false).frameUnread f v

/-- A corrected or uncorrectable line of the flow cache (16 Table 16.7). Which way of its set it stands in is free. -/
def State.cacheEvent (s : State) (set : Nat) (tail bad : Bool) : State :=
  let (way, s) := s.free
  s.memEvent 2 bad false (capture [(2, set), (1, way % 16), (1, b1 tail)])

/-- A frame's key without CANON: under BIDIR the two directions of a flow share one tail, and differ in that bit alone. -/
def Frame.flowOf (v : Frame) : Option FlowKey := v.key.map fun k => k &&& ~~~ Ky.canon

/-- Is the frame's turn come: no earlier frame of its flow waits for a verdict, so that updates to one tail keep the order in
which their frames reached the flow stage (R119), and its read of memory, if it makes one, holds a transaction (R122) of a
memory that runs? -/
def State.verdictDue (s : State) (f : Nat) (v : Frame) : Bool :=
  !((s.flow.entered.takeWhile (· != f)).any fun g => (s.frame g).any fun w => w.awaits && w.flowOf == v.flowOf)
    && (!v.mem || (s.readServed f && s.locked .memory))

/-- The verdict from memory: the record found, or a miss. -/
def State.onRead (s : State) (f : Nat) (v : Frame) (k : FlowKey) (r : FlowRead) : State :=
  if eccBad r.ecc then s.readFailed f v k r
  else
    let s := s.poisonHead (s.badSlot v k r) r false
    match s.matchHead (s.policyFor v) k with
    | some (x, h) =>
      let s := if s.atHome x h then s else s.countW (Num.offHome v.slice)
      let (hit, s) := if Hd.tail h < tailCount then s.touchTail (Hd.tail h) false else (false, s)
      let s := if hit then s.countW (Num.tailHits v.slice) else s
      s.onHead f v x h
    | none => (s.countW (Num.misses v.slice)).onMiss f v k

/-- The frame's lookup goes on in memory: its line has left the cache. -/
def State.rereadFrame (s : State) (f : Nat) (v : Frame) : State :=
  (s.setFrame f { v with head := none, mem := true }).noteFlight 0

/-- The verdict from a head that a cache or the CAM returned, its tail from the tail cache or, `v.mem`, from memory. A bad line
leaves the cache and its record is read from memory; a dirty tail that is lost poisons the record, and no word of the stacks
was bad (16 Table 16.7). -/
def State.onCached (s : State) (f : Nat) (v : Frame) (k : FlowKey) (h : BitVec 512) (r : FlowRead) : State :=
  let t := Hd.tail h
  let set := headSetOf s (Hd.key h)
  match r.ecc with
  | .good => s.onHead f v v.headSlot h
  | .corrected =>
    let s := if !r.inTail then s.cacheEvent set false false
      else if v.mem then s.stackEvent (tailOffset t) false false
      else s.cacheEvent (t % 16384) true false
    s.onHead f v v.headSlot h
  | .tail =>
    if v.mem then s.readFailed f v k { r with slot := some v.headSlot } else
    let dirty := (tget s.flow.tailCache (t % 16384) []).any fun c => c.tail == t && c.dirty
    let s := (s.cacheEvent (t % 16384) true true).uncacheTail t
    if dirty then (s.poisonTail v.headSlot).frameUnread f v else s.rereadFrame f v
  | _ => ((s.cacheEvent set false true).uncacheHead v.headSlot).rereadFrame f v

/-- The frame has its verdict: its transaction retires, and the oldest of those that wait for its share begins. -/
def State.leaveLookup (s : State) (f : Nat) : State :=
  if (s.frame f).any Frame.awaits then s else { s with flow.entered := s.flow.entered.filter (· != f) }.noteFlight 0

/-- FLOW_VERDICT: the flow stage returns the verdict of a frame, from the head a cache returned or from the memory read; it
runs the flow actions or the admission and judges the copies (06 R147; 05 R118, R123). -/
def execFlowVerdict (t : Nat) (f : Nat) (ecc : FlowRead) (s : State) : Result :=
  s.runPipe t fun s =>
    match s.frame f with
    | none => s
    | some v =>
      if !v.awaits || !s.verdictDue f v then s else
      let k := v.key.getD 0
      let s := s.onSample f fun n x => { x with flow := some n }
      let v := (s.frame f).getD v
      (match v.head with
        | some h => s.onCached f v k h ecc
        | none => s.onRead f v k ecc).leaveLookup f

/-- May a frame run ahead of its verdict (R167)? Its lookup missed the caches, and `matched`: reverse resolution matched. -/
def State.runsAhead (s : State) (v : Frame) (matched : Bool) : Bool :=
  match v.plain with
  | [(q, _)] =>
    let r := s.portRate q
    bit (s.num 0x3400 1) v.cls && decide (q < 32) && decide (v.port < 32) && actVerdict v.action != 3
      && (actMirror v.action).isNone && !matched && s.redPartner q ≥ 32 && s.redMode q == 0
      && bit (s.num 0x5200 0) q && decide (r ≤ s.portRate v.port) && r != 0
      && (match v.p.implied with
        | some n => decide (s.num 0x3400 2 * nsPs ≤ n * 8000 / r)
        | none => false)
  | _ => false

/-- The flow lookup of a released frame (05 R114, R118; 06 R157): reverse resolution, the key, the head cache and the CAM. -/
def State.flowLookup (s : State) (f : Nat) (v : Frame) (e : BitVec 128) : State :=
  let l := (v.p.layer (Pol.inner e)).2
  let rev := s.reverse l v.zone
  let s := match rev with
    | .unresolved => s.count Num.unresolved
    | .none => s
    | .other => s
    | _ => s.count Num.reverseResolutions
  -- a resolved frame leaves with its restored destination, keyed or not (R157)
  let v := { v with inner := Pol.inner e, resolved := rev.resolved }
  match flowKey e v rev.resolved with
  | none => ((s.setFrame f v).count (Num.keyTypeMismatches v.port)).conclude f {}
  | some (k, mark) =>
    let v := { v with key := some k, reverse := mark, stage := .flow }
    let s := { s with flow.entered := s.flow.entered ++ [f] }
    let hit := match s.matchHead (s.policyFor v) k with
      | some (x, h) => if s.headCached (Hd.key h) x || s.inCam x then some (x, h) else none
      | none => none
    match hit with
    | some (x, h) =>
      let cached := s.headCached (Hd.key h) x
      let s := if cached then (s.countW (Num.headHits v.slice)).touchHead (Hd.key h) x else s
      let (th, s) := if Hd.tail h < tailCount then s.touchTail (Hd.tail h) false else (false, s)
      let s := if th then s.countW (Num.tailHits v.slice) else s
      let mem := !th && decide (Hd.tail h < tailCount)
      (s.setFrame f { v with head := some h, headSlot := x, tailRead := s.tailVal (Hd.tail h), mem }).noteFlight 0
    | none =>
      let s := s.countW (Num.memoryLookups v.slice)
      let v := { v with mem := true }
      let s := (s.setFrame f v).noteFlight 0
      if s.runsAhead v (rev != .none) then
        let v := { v with ahead := true }
        (s.setFrame f v).judge f (s.targets v .forward none) []
      else s.setFrame f v

/-- A void entry (R70): it goes; a frame that its rule drops is first judged for the copy of the rule's mirror session, which
is made whatever the verdict (07 R199). It has no number (07 R188). -/
def State.releaseVoid (s : State) (f : Nat) (v : Frame) : State :=
  match actMirror v.action with
  | some m => (s.setFrame f { v with numbered := false }).judge f [] [m]
  | none => s.frameGone f

/-- Release one classified frame (03 R70; 07 R188): a void entry goes; any other takes its number and its decisions. -/
def State.releaseFrame (s : State) (f : Nat) (v : Frame) (words : List (Nat × Bool)) : State :=
  if v.reason ≠ 0 then s.releaseVoid f v else
  let d := v.dom
  let n := tget s.buf.oseq d 0
  let s := { s with buf.oseq := tset 0 s.buf.oseq d (n + 1) }
  let v := { v with oseq := n }
  let s := (s.setFrame f v).onSample f fun n x => { x with classified := some n }
  let v := { v with sample := (s.frame f).bind Frame.sample }
  if v.toHost then s.conclude f { fate := .host 5 }
  else
    let (mask, s) := (s.fdbWords v words).fdbDecide v
    let s := if isGroup v.p.smac then s.countW (Num.invalidSa v.port) else s
    let (learn, refresh) := s.learnOf v
    let v := { v with fdb := mask, learn, refresh }
    let s := (s.setFrame f v).learnNow f
    let v := if v.endAt.isSome then { v with learn := none, refresh := none } else v
    let e := s.policyEntry (actPolicy v.action)
    if Pol.ktype e = 0 then s.conclude f {} else s.flowLookup f v e

/-- REORDER_RELEASE: the reorder stage of a slice releases its next frame, once that is classified (R70). -/
def execReorderRelease (t : Nat) (r : Released) (s : State) : Result :=
  s.runPipe t fun s =>
    let sl := r.slice.val
    let n := tget s.buf.release sl 0
    match s.buf.frames.find? fun e => e.2.slice == sl && e.2.iseq == n && e.2.stage == .classified with
    | some (f, v) => { s with buf.release := tset 0 s.buf.release sl (n + 1) }.releaseFrame f v r.words
    | none => s

end Sys2Proof.Machine
end

