-- ==== Sys2Proof/Machine/Ingress.lean ====
section
/-! DEFINITION. Links, the MAC and the staging buffers, the parser's intake, the classifier engines, the samplers and the
background scrub of the rules (03 R57 to R74; 16 R416). -/
namespace Sys2Proof.Machine

/-! ### Links (03 R59, R460; 08 R225; 04 R102) -/

def linkCode : Link → Nat
  | .down => 0 | .training => 1 | .up => 2

/-- The link-change event of a port. -/
def State.linkEvent (s : State) (p : Nat) (up : Bool) : State :=
  s.raise p (if up then 2 else 1) [byte (linkCode (s.port p).link)]

/-- May the port train: it is enabled, its slice is not OFF, the PLLs of its lanes have lock (14 R359), and the device is not
entering DORMANT, which has taken every link down (14 R363)? -/
def State.portLive (s : State) (p : Nat) : Bool :=
  s.portMode p != 0 && !((s.slice (portSlice p)).state == .off)
    && (List.finRange 36).all (fun n => !(decide (p ≤ n.val) && decide (n.val < p + modeLanes (s.portMode p))) || s.locked (.lane n))
    && s.pow.target.map Prod.fst != some .dormant

/-- LINK_TRAINING_START, PARTNER_DETECTED: the link-up procedure of an enabled port begins (R460). -/
def State.startTraining (s : State) (p : Nat) : State :=
  if s.portLive p && (s.port p).link == .down then s.setPort p { s.port p with link := .training } else s

/-- The enabled ports of a slice that has left OFF begin their link-up (R460). -/
def State.trainSlice (s : State) (sl : Nat) : State := (below 32 fun p => portSlice p == sl).foldl State.startTraining s

def execLinkTrainingStart (t : Nat) (p : Fin 32) (s : State) : Result := s.run t fun s => s.startTraining p
def execPartnerDetected (t : Nat) (p : Fin 32) (s : State) : Result := s.run t fun s => s.startTraining p

/-- The receivers of a port's lanes at link-up (14 R381). -/
def State.trainReceivers (s : State) (p : Nat) : State :=
  (List.range (modeLanes (s.portMode p))).foldl (fun (s : State) i => s.trainLane (p + i)) s

/-- LINK_UP: auto-negotiation, link training and PCS lock have ended with the partner; preemption begins afresh (R223). -/
def execLinkUp (t : Nat) (p : Fin 32) (s : State) : Result :=
  s.run t fun s =>
    if s.portLive p && (s.port p).link == .training then
      ((((s.trainReceivers p).setPort p { s.port p with link := .up }).linkEvent p true).restartPreemption p)
    else s

/-! ### Staging buffers (03 R61 to R63) -/

/-- Bytes of the staging buffer of a port: 16 KiB for each of its lanes. -/
def State.stagingSize (s : State) (p : Nat) : Nat := 16384 * modeLanes (s.portMode p)

/-- Bytes that the frames of a port, `f` apart, hold in its staging buffer. -/
def State.staged (s : State) (p f : Nat) : Nat :=
  ((s.buf.frames.filter fun e => e.1 != f && e.2.port == p && e.2.stage == .staging && !e.2.refused).map fun e =>
    s.arrived e.2).sum

/-- The high-water marks of a staging buffer see a fill: the port's own, and the frequency loop's (14 R376). -/
def State.noteFill (s : State) (p n : Nat) : State :=
  let n := min n (s.stagingSize p)
  let x := s.port p
  let s := s.setPort p { x with stagingHigh := BitVec.ofNat 32 (max x.stagingHigh.toNat n) }
  let i := portSlice p
  s.setSlice i { s.slice i with peak := max (s.slice i).peak n }

/-- Is a frame arriving on the port? -/
def State.receiving (s : State) (p : Nat) : Bool := s.buf.frames.any fun e => e.2.port == p && e.2.endAt.isNone

/-- RX_FRAME_START: the first byte of a frame enters the staging buffer; a slice in NAP or DOZE is woken (R62). A frame that
the device takes in by no stage is discarded where it is, and wakes nothing (12 R316). -/
def execRxFrameStart (t : Nat) (p : Fin 32) (head : List Byte) (s : State) : Result :=
  s.run t fun s =>
    if !((s.port p).link == .up) || s.receiving p then s else
    let shut := s.intakeClosed
    let s := match shut with | some n => s.count (n p) | none => s
    let s := s.newFrame {
      port := p, bytePs := s.bytePs p, startAt := s.now, limit := s.num (0x2000 + p) 4, bytes := head
      refused := shut.isSome, slice := portSlice p, tIn := s.ns0
      tIn1 := if gptpEvent head then some (s.domainNs 1) else none }
    if shut.isSome then s else s.wake (portSlice p) wakeFrame

/-! ### The end of a frame (03 R60, R63; 07 R181, R187, R207) -/

/-- How a frame of these bytes ends badly (R60): a frame beyond the maximum is cut there, however it ends. -/
def badEnd (limit : Nat) (bs : List Byte) (linkFailed : Bool) : Option BadEnd :=
  if limit < bs.length then some .oversize
  else if linkFailed then some .link
  else
    let c := crc32 (bs.take (bs.length - 4))
    let fcs := leVal (bs.drop (bs.length - 4))
    if fcs = c then none
    else if fcs = c ^^^ 0xFFFFFFFF then some .stomp
    else some .fcs

/-- How a frame that has been taken in ends badly: as the MAC finds it, or with an HSR tag that the whole frame contradicts, a
frame untagged on its ring (09 R251). -/
def State.endOf (s : State) (v : Frame) (all : List Byte) (linkFailed : Bool) : Option BadEnd :=
  match badEnd v.limit all linkFailed with
  | some b => some b
  | none =>
    if isHsr (s.redMode v.port) && v.p.hsr.any (fun o => !hsrAgrees all (all.length - 4) o.1) then some .untagged else none

/-- The counters of a bad end, or of one that its redundancy port discards. -/
def State.countBad (s : State) (p : Nat) : BadEnd → State
  | .fcs => s.count (Num.fcsErrors p)
  | .link => s.count (Num.fcsErrors p)
  | .oversize => (s.count (Num.oversize p)).count (Num.fcsErrors p)
  | .stomp => s.count (Num.upstreamStomps p)
  | .untagged => (s.count (Num.untaggedOnRing p)).redPortEvent 1 p

/-- Once the length of a stored frame is known: its last cells are written, each copy's charge is lowered to the cells
written, and each copy takes its L (R181, R207). -/
def State.fixLength (s : State) (f : Nat) : State :=
  match s.frame f with
  | none => s
  | some v =>
    if !(v.stage == .stored) then s else
    let n := cellsOf v.bytes.length
    let s := if v.cells.length < n then
        let (cs, s) := s.takeCells v.slice (n - v.cells.length)
        s.setFrame f { v with cells := v.cells ++ cs }
      else s
    (s.copiesOf f).foldl (fun s c =>
      match s.copy c with
      | none => s
      | some k =>
        if k.void then s else
        let s := s.uncharge k.queue k.port (k.charge - n)
        s.setCopy c { k with charge := min k.charge n, len := s.copyLen v k v.bytes.length }) s

/-- A frame that ends badly: every copy not yet on the wire becomes void (R187). -/
def State.voidCopies (s : State) (f : Nat) : State :=
  (s.copiesOf f).foldl (fun s c =>
    match s.copy c with
    | some k => if s.onWire c k then s else s.voidCopy c
    | none => s) s

/-- Everything the end of a frame settles. -/
def State.frameEnded (s : State) (f : Nat) (bad : Option BadEnd) : State :=
  let s := (s.fixLength f).endDelta f bad.isNone
  let s := match s.frame f with | some v => s.witnessEnd f v | none => s
  let s := s.learnNow f
  let s := if bad.isSome then s.voidCopies f else s
  match s.frame f with
  | some v =>
    if v.stage != .gone then s else
    let s := (s.sampleDone v).onFrame f fun v => { v with sample := none }
    if v.verdictIn || !v.ahead then s.dropFrame f else s
  | none => s

/-- A staging drop (R63). -/
def State.stagingDrop (s : State) (p len : Nat) : State :=
  let s := (s.countW (Num.stagingFrames p)).countW (Num.stagingBytes p) len
  s.raise (0x40 + portSlice p) (2 ^ (p % 8)) [byte p]

/-- Is a frame one of PAUSE and PFC (R60)? -/
def macControl (bs : List Byte) : Bool := beAt bs 12 2 == 0x8808

/-- An answer of the link partner, Pdelay_Resp or its follow-up, ends a measurement of the mean link delay: the value that the
firmware derives is free (08 R227, Table 8.7; log entry 8). -/
def State.measureDelay (s : State) (p : Nat) (bs : List Byte) : State :=
  let on (n : Nat) : Bool := (List.range 2).any fun d => s.num (0x6500 + d) 1 == 1 && s.num (0x6500 + d) 2 == n
  match gptpOf bs with
  | some (ty, n) =>
    if (ty == 3 || ty == 10) && on n && decide (p < 32) && s.groupActs timekeepersGroup then
      let (x, s) := s.free
      s.setPort p { s.port p with linkDelay := BitVec.ofNat 32 x }
    else s
  | none => s

/-- A good gPTP message reaches the Timekeepers, in STANDBY too (12 R316), with the stamps of both domains (08 R228). -/
def State.gptpReceived (s : State) (v : Frame) (bs : List Byte) : State :=
  let s := match v.tIn1 with
    | some n => s.setPort v.port { s.port v.port with gptpIn := (v.tIn, n) }
    | none => s
  (s.countGptp v.port 1 bs).measureDelay v.port bs

/-- The MAC judges a frame whose last byte has arrived. One of fewer than 64 bytes is undersize and nothing else, also when its
link failed in mid-frame, of which R60 speaks too (DESIGN CHOICE, log entry 94). -/
def State.rxEnd (s : State) (f : Nat) (v : Frame) (all : List Byte) (linkFailed : Bool) : State :=
  let p := v.port
  if all.length < 64 then (if v.refused then s else s.count (Num.undersize p)).dropFrame f else
  let bad := s.endOf v all linkFailed
  let bs := if bad = some .oversize then all.take (v.limit + 1) else all
  let s := (s.countW (Num.rxFrames p)).countW (Num.rxBytes p) bs.length
  let s := match bad with | some b => s.countBad p b | none => s.gptpReceived v bs
  if v.refused then s.dropFrame f
  else if macControl bs then (s.count (Num.macControl p)).dropFrame f
  else
    let fill := s.staged p f + (if v.stage == .staging then bs.length else 0)
    let full := v.stagingDrop || (v.stage == .staging && !s.sliceRuns v.slice && decide (s.stagingSize p < fill))
    let s := s.noteFill p fill
    if full then (s.stagingDrop p bs.length).dropFrame f
    else (s.setFrame f { v with bytes := bs, endAt := some s.now, bad }).frameEnded f bad

/-- The receive side of preemption reassembles fragments, and counts its errors, whenever the mode is not off (08 R223). -/
def State.countMerge (s : State) (p : Nat) (m : RxMerge) : State :=
  if (s.egr p).oper.preempt = 0 then s else
  let s := (s.count (Num.fragmentsReceived p) m.fragments).countW (Num.framesReassembled p) (if m.fragments = 0 then 0 else 1)
  (s.count (Num.assemblyErrors p) m.assembly).count (Num.smdErrors p) m.smd

/-- RX_FRAME_END: the last byte of a frame arrives; `rest` is what followed its head, FCS included (R60), and `merge` how it
came over a preempting link. -/
def execRxFrameEnd (t : Nat) (f : Nat) (rest : List Byte) (linkFailed : Bool) (merge : RxMerge) (s : State) : Result :=
  s.run t fun s =>
    match s.frame f with
    | some v => if v.endAt.isNone then (s.countMerge v.port merge).rxEnd f v (v.bytes ++ rest) linkFailed else s
    | none => s

/-- The frame in mid-arrival on a port ends with its link, in a bad FCS (R60). The bytes that have arrived since its head are
the line's: free values. -/
def State.cutArrival (s : State) (p : Nat) : State :=
  match s.buf.frames.find? fun e => e.2.port == p && e.2.endAt.isNone with
  | none => s
  | some (f, v) =>
    let n := s.arrived v
    let (rest, s) := s.freeBytes (n - v.bytes.length)
    s.rxEnd f v (v.bytes.take n ++ rest) true

/-- The link state of a port goes to down: what it receives ends, and its copies if it was up (R60, R225); from up or
training alike, its link-down flush is requested (04 R102). The link-change event is raised where the port comes up or leaves
up; that the start and the failure of training raise none is a DESIGN CHOICE (R83; log entry 94). -/
def State.takeDown (s : State) (p : Nat) : State :=
  let was := (s.port p).link
  let s := s.cutArrival p
  let s := s.setPort p { s.port p with link := .down }
  let s := if was == .up then ((s.linkEvent p false).stopPort p).setPreemption p .inactive else s
  if was != .down && s.num (0x2410 + p) 2 == 1 then s.linkDownFlush p else s

/-- LINK_DOWN: the link state of a port leaves up (R225). -/
def execLinkDown (t : Nat) (p : Fin 32) (s : State) : Result := s.run t fun s => s.takeDown p

/-! ### Samplers (16 R416) -/

/-- Is a frame offered to sampler `k`? -/
def State.samplerTakes (s : State) (k : Nat) (v : Frame) : Bool :=
  let i := samplerIdx k
  s.num i 1 != 0 && bit (s.num i 2) v.port && bit (s.num i 3) v.cls
    && (actMeta v.action &&& s.num i 7) == (s.num i 6 &&& s.num i 7)

/-- Offer a frame to the samplers: the lowest selecting one that holds a token takes it. -/
def State.offerSamplers (s : State) (f : Nat) : State :=
  match s.frame f with
  | none => s
  | some v =>
    (List.range 8).foldl (fun s k =>
      if !s.samplerTakes k v then s else
      let x := s.sampler k
      let sel := x.offered % max 1 (s.num (samplerIdx k) 5) == 0
      let x := { x with offered := x.offered + 1 }
      let s := (s.setSampler k x).count (Num.sampOffered k)
      if !sel then s
      else if x.tokens = 0 then s.count (Num.sampLimited k)
      else if ((s.frame f).bind Frame.sample).isSome then s.count (Num.sampMerged k)
      else (s.setSampler k { x with tokens := x.tokens - 1 }).onFrame f fun v =>
        { v with sample := some {
          sampler := k, mode := s.num (samplerIdx k) 1, egress := s.num (samplerIdx k) 4, reason := v.reason } }) s

/-! ### Parsing (03 R64 to R69, R73) -/

def classOf (map pcp : Nat) : Nat := bits map (3 * pcp) 3

/-- The traffic class before any rule: of the TX descriptor, or of the port's PCP map (R71, 10 R277). -/
def State.portClass (s : State) (v : Frame) : Nat :=
  match v.txClass with
  | some c => c
  | none => classOf (s.num (0x2000 + v.port) 7) (if v.p.tagged then v.p.pcp else 0)

/-- The oldest frame of a port that waits in staging. -/
def State.nextStaged (s : State) (p : Nat) : Option Nat :=
  (s.buf.frames.find? fun e =>
    e.2.port == p && e.2.stage == .staging && !e.2.refused && !e.2.stagingDrop
      && !(decide (p < 32) && macControl e.2.bytes)).map Prod.fst

/-- Are the parse bytes of a frame in staging: the first d, or all of a shorter frame; all of it on a PRP port (R64)? -/
def State.parseReady (s : State) (v : Frame) (d : Nat) : Bool :=
  v.endAt.isSome || (!isPrp (s.redMode v.port) && decide (d ≤ s.arrived v) && decide (d ≤ v.bytes.length))

/-- Parse the bytes of a frame that are there; an HSR tag whose size disagrees with the frame is none (09 R251). The size of a
frame still arriving is not known; its tag is judged at its end. -/
def State.parsed (s : State) (v : Frame) (d : Nat) : Parsed :=
  let body := if v.endAt.isSome then some v.body else none
  let present := match body with | some b => b | none => v.bytes
  let p := parseFrame s.parseCfg (present.take d) body (isPrp (s.redMode v.port))
  match body, p.hsr with
  | some b, some (off, _) => if isHsr (s.redMode v.port) && !hsrAgrees b b.length off then { p with hsr := none } else p
  | _, _ => p

/-- Number and stamp a frame (R69, R73). -/
def State.numberFrame (s : State) (f : Nat) (v : Frame) : State :=
  let n := tget s.buf.iseq v.slice 0
  let cur := s.currentSlot
  let x := s.verSlot cur
  let s := { s with buf.iseq := tset 0 s.buf.iseq v.slice (n + 1) }
  let s := s.setVerSlot cur { x with frames := x.frames + 1 }
  (s.countW (Num.framesNumbered v.slice)).setFrame f { v with iseq := n, slot := cur, stage := .classifying }

/-- Count the parse exceptions of a frame, and raise the slice's event (R66). -/
def State.countExceptions (s : State) (v : Frame) : State :=
  let e := v.p.exc
  let s := (below 4 fun i => bit e i).foldl (fun s i => s.count (Num.parseExceptions v.port i)) s
  if e = 0 then s else s.raise (0x44 + v.slice) e [byte v.port]

/-- A frame that classification drops leaves a void entry (R70). -/
def State.classDrop (s : State) (f : Nat) (reason : Nat) : State :=
  (s.onFrame f fun v => { v with stage := .classified, reason }).offerSamplers f

/-- A frame leaves staging for the slice: it is numbered, stamped and parsed. Its redundancy port sees it before a parse
exception action takes it (09 R251, R255). -/
def State.intake (s : State) (f : Nat) (v : Frame) (d : Nat) : State :=
  let s := s.noteFill v.port (s.staged v.port f + s.arrived v)
  let v := { v with p := s.parsed v d }
  let s := (s.numberFrame f v).countExceptions v
  let act := s.num (0x2000 + v.port) 10
  if v.p.exc = 0 ∨ act = 0 then s else
  let (keep, s) := s.redIngress v
  if !keep then s.classDrop f 0xC else
  (s.onFrame f fun w => { w with
    stage := .classified, cls := s.portClass v
    reason := if act = 1 then 1 else 0, toHost := act == 2 }).offerSamplers f

/-- PARSE: a frame whose parse bytes are in staging leaves it for a slice in RUN, in the order of its port (R61, R64). -/
def execParse (t : Nat) (f : Nat) (s : State) : Result :=
  s.runPipe t fun s =>
    match s.frame f with
    | none => s
    | some v =>
      let d := s.num (0x2000 + v.port) 8
      if s.nextStaged v.port ≠ some f ∨ !s.sliceRuns v.slice ∨ !s.parseReady v d then s
      else match s.intakeClosed with
        | some n =>
          let s := s.count (n v.port)
          if v.endAt.isSome then s.dropFrame f else s.setFrame f { v with refused := true }
        | none => s.intake f v d

/-! ### Classification (03 R67, R68, R71, R72) -/

/-- The VID under which a frame is classified. -/
def State.classVid (s : State) (v : Frame) : Nat :=
  if v.p.tagged && v.p.vid != 0 then v.p.vid else s.num (0x2000 + v.port) 5

/-- Does the port refuse a frame of this type? -/
def State.typeRefused (s : State) (v : Frame) : Bool :=
  let tagged := v.p.tagged && v.p.vid != 0
  match s.num (0x2000 + v.port) 6 with
  | 1 => !tagged
  | 2 => tagged
  | _ => false

/-- Does a row match a key under a version slot (R72)? -/
def RuleRow.hits (r : RuleRow) (slot : Fin 4) (key : BitVec 512) : Bool :=
  r.valid && !r.masked && bit r.slots.toNat slot.val && (key &&& r.mask) == (r.key &&& r.mask)

/-- The row that decides a key under a version slot: the lowest that matches (R72). -/
def Rules.match_ (r : Rules) (slot : Fin 4) (key : BitVec 512) : Option (Nat × RuleRow) :=
  r.rows.find? fun e => e.2.hits slot key

/-- A parity error of a rule's row in a slice (01 Table 1.7): the memory event, the rule-parity event, and the row masked in
all slices where software chose so (Table 3.11). The structure code of the memory event is free. -/
def State.tcamParity (s : State) (sl : Nat) (row : Fin 32768) (scrub : Bool) : State :=
  let (code, s) := s.free
  let s := s.memEvent 3 true scrub (capture [(1, code % 256), (2, row.val)])
  let s := s.raise 0x188 (2 ^ sl) (capture [(2, row.val)])
  if s.num 0x2304 0 = 1 then
    match tfind s.rules.rows row with
    | some r => { s with rules.rows := tput s.rules.rows row { r with masked := true } }
    | none => s
  else s

/-- A corrected or uncorrectable word of another core table on a frame's lookups (16 R424). Its structure code and its word
are free. -/
def State.tableEcc (s : State) (e : Ecc) : State :=
  if e = .good then s else
  let (code, s) := s.free
  let (word, s) := s.free
  s.memEvent 3 (eccBad e) false (capture [(1, code % 256), (2, word % 65536)])

/-- The lookups of a classifier engine on a frame. -/
def State.classify (s : State) (f : Nat) (v : Frame) : State :=
  let vid := s.classVid v
  let v := { v with vid, zone := s.vlanZone vid, cls := s.portClass v }
  let s := s.setFrame f v
  if s.typeRefused v then (s.count (Num.frameTypeDrops v.port)).classDrop f 1
  else if !bit (s.vlanMembers vid) v.port then (s.count (Num.ingressFilterDrops v.port)).classDrop f 1
  else
    let key := classKey v.port v.p (s.num (0x2000 + v.port) 9 == 1) vid v.zone
    let (row, action) := match s.rules.match_ v.slot key with
      | some (n, r) => (some n, r.action)
      | none => (none, (s.verSlot v.slot).action)
    let s := match row with
      | some n => s.countW (Num.ruleHits n)
      | none => s.countW (Num.defaultHits v.slot.val)
    let s := s.setFrame f { v with row, action, cls := (actTc action).getD v.cls }
    if actVerdict action = 1 then (s.count (Num.ruleDrops v.port)).classDrop f 1
    else (s.onFrame f fun v => { v with stage := .classified }).offerSamplers f

/-- The lookups of a classifier engine on a frame, with the errors they meet: a parity error answers before the row decides;
an uncorrectable word of another table drops the frame (16 Table 16.7). -/
def State.classifyRead (s : State) (f : Nat) (v : Frame) (c : Classified) : State :=
  let s := match c.parity with | some row => s.tcamParity v.slice row false | none => s
  let s := s.tableEcc c.table
  if eccBad c.table then (s.count (Num.uncorrectableDrops v.port)).classDrop f 4 else s.classify f v

/-- CLASSIFICATION_DONE: a classifier engine completes a frame; a frame that its redundancy port discards is a void entry. -/
def execClassificationDone (t : Nat) (f : Classified) (s : State) : Result :=
  s.runPipe t fun s =>
    match s.frame f.f with
    | none => s
    | some v =>
      if !(v.stage == .classifying) then s else
      let (keep, s) := s.redIngress v
      if keep then s.classifyRead f.f v f else s.classDrop f.f 0xC

/-- SAMPLER_TOKEN_REFILL: a bucket fills for the time since its latest refill, at its rate and up to its burst (16 R416). A rate
per second is a rate in 10^-12 per picosecond. -/
def execSamplerTokenRefill (t : Nat) (k : Fin 8) (s : State) : Result :=
  s.run t fun s =>
    let x := s.sampler k
    let burst := s.num (samplerIdx k) 9
    let all := x.tokens * 10 ^ 12 + x.part + s.num (samplerIdx k) 8 * (s.now - x.refillAt)
    s.setSampler k { x with
      tokens := min burst (all / 10 ^ 12), part := if burst * 10 ^ 12 ≤ all then 0 else all % 10 ^ 12, refillAt := s.now }

/-- TCAM_SCRUB: the scrub reads a row's bank of a slice, and may meet a parity error (01 Table 1.7). -/
def execTcamScrub (t : Nat) (sl : Fin 4) (row : Fin 32768) (bad : Bool) (s : State) : Result :=
  s.runPipe t fun s => if bad then s.tcamParity sl row true else s

end Sys2Proof.Machine
end

