-- ==== Sys2Proof/Machine/Time.lean ====
section
/-! DEFINITION. The domain clocks, the wake plan and its hold spans (08 R218, R226 to R233). -/
namespace Sys2Proof.Machine

/-! ### Clocks (08 R218, R227, R229) -/

/-- The time event of a domain, with the offset from the grandmaster. -/
def State.timeEvent (s : State) (d flags : Nat) : State :=
  s.raise (0x64 + d) flags (capture [(8, twos 8 (s.clock d).offset)])

/-- CLOCK_STEP: the Timekeepers set a domain clock. Gated ports on that domain go on at the position in the cycle of the new
time, and a pending set whose change time has passed is swapped in (R218). -/
def execClockStep (t : Nat) (d : Fin 2) (seconds nanos : Nat) (s : State) : Result :=
  s.run t fun s =>
    if !s.groupActs timekeepersGroup || secNs ≤ nanos || 2 ^ 48 ≤ seconds then s else
    let c := s.clock d
    let c := { c with value := (seconds * secNs + nanos) * 2 ^ 32, at_ := s.now, steps := c.steps + 1 }
    let s := (s.setClock d c).timeEvent d 4
    (List.range 32).foldl (fun s p =>
      let s := s.swapIfDue p
      if (s.egr p).oper.enabled && (s.egr p).oper.domain == d.val then s.gateEntry p else s) s

/-- TIME_CAPTURE: both domains at one instant (R229). -/
def State.timeCapture (s : State) : State := { s with captured0 := s.domainNs 0, captured1 := s.domainNs 1 }

def execTimeCapture (t : Nat) (m : Master) (s : State) : Result := s.runBy m t State.timeCapture

/-- The flags of the time event for what a gPTP instance reports (Table 8.9). -/
def gmFlags (c : Clock) (g : GmChange) : Nat :=
  flagIf (g.synchronised && !c.synced) 0 + flagIf (!g.synchronised && c.synced) 1
    + flagIf (c.grandmaster != Machine.slice g.identity 0 8) 3

/-- The rate that a report gives a clock: a domain that has lost its grandmaster keeps its last rate (R227). -/
def Clock.adjusted (c : Clock) (now : Nat) (g : GmChange) : Clock :=
  match g.synchronised, g.rate with
  | true, some r => { c with value := c.at now, at_ := now, rate := r }
  | _, _ => c

/-- GRANDMASTER_CHANGE: a gPTP instance gains synchronisation, loses it, or changes grandmaster, or adjusts the rate of its
clock to the grandmaster that it follows (R227). -/
def execGrandmasterChange (t : Nat) (d : Fin 2) (gm : GmChange) (s : State) : Result :=
  s.run t fun s =>
    if !s.groupActs timekeepersGroup then s else
    let c := s.clock d
    let fl := gmFlags c gm
    let s := s.setClock d { c.adjusted s.now gm with
      synced := gm.synchronised, grandmaster := Machine.slice gm.identity 0 8, offset := gm.offset }
    if fl = 0 then s else s.timeEvent d fl

/-! ### Hold spans and the wake plan (08 R230 to R233) -/

/-- The pending lists of a port with their change times: the pending set, and that of a timed commit accepted (R216). -/
def Egress.pendingSets (e : Egress) : List (GateSet × Nat) := e.waiting.toList ++ e.timed.toList

/-- Is slice `i` named by an operational or pending list? -/
def State.named (s : State) (i : Nat) : Bool :=
  s.egress.any fun e => e.2.oper.names i || e.2.pendingSets.any fun g => g.1.names i

/-- Is slice `i` named by a committed list whose change time the plan does not cover yet, be that time past (R231)? -/
def State.awaitsPlan (s : State) (i : Nat) : Bool :=
  s.pow.uncovered.any (fun g => g.2.1.names i)
    || s.egress.any fun e => e.2.pendingSets.any fun g => g.1.names i && !s.planCovers e.1 g

/-- The entries of a list, each with the time from the start of the cycle at which it opens. -/
def GateSet.opens (g : GateSet) : List (Nat × Seg) :=
  ((List.range (g.list.length / 8)).foldl (fun (a : Nat × List (Nat × Seg)) i =>
    let x := gateEntry g.list i
    (a.1 + x.dur, a.2 ++ [(a.1, x)])) (0, [])).2

/-- The hold spans that a list defines while it is in force, from instant `a` to instant `b`: each from the wake lead before
its entry opens to the end of the entry (R230). -/
def State.listSpans (s : State) (g : GateSet) (a b : Nat) : List HoldSpan :=
  if !g.enabled || g.cycle = 0 || b ≤ a then [] else
  let lead := s.num 0x6400 1 * nsPs
  let pos := g.pos (s.domainPs g.domain + (a - s.now))
  let cycle (k : Nat) : List HoldSpan := g.opens.filterMap fun x =>
    let o := a + k * (g.cycle * 1000) + x.1
    if x.2.wake = 0 ∨ o + x.2.dur ≤ a + pos ∨ b + pos ≤ o then none
    else some { slices := x.2.wake, start := o - pos - lead, stop := min b (o + x.2.dur - pos) }
  ((List.range ((b - a + pos) / (g.cycle * 1000) + 1)).map cycle).flatten

/-- The hold spans of a port up to an instant: of its operational list until the first change time, then of each pending list
from its own. -/
def State.portSpans (s : State) (e : Egress) (upTo : Nat) : List HoldSpan :=
  let sets := (e.oper, s.now) :: e.pendingSets.map fun g => ({ g.1 with base := g.2 }, s.instantOf g.1.domain g.2)
  let ends := (sets.drop 1).map Prod.snd ++ [upTo]
  ((sets.zip ends).map fun x => s.listSpans x.1.1 x.1.2 (min x.2 upTo)).flatten

/-- Is a plan one that Timekeepers firmware writes (R231): does it reach 10 ms or two of the longest cycles ahead, whichever is
more, hold each slice in every span that the lists define, and name no other slice? -/
def State.planFits (s : State) (spans : List HoldSpan) (planEnd : Nat) : Bool :=
  let longest := (s.egress.map fun e => if e.2.oper.enabled then e.2.oper.cycle * 1000 else 0).foldl max 0
  let need := (s.egress.map fun e => s.portSpans e.2 planEnd).flatten
  let held (x : HoldSpan) (i : Nat) : Bool := !bit x.slices i || spans.any fun h =>
    bit h.slices i && decide (h.start ≤ max s.now x.start) && decide (x.stop ≤ h.stop)
  decide (s.now + max (10 * 10 ^ 9) (2 * longest) ≤ planEnd)
    && need.all (fun x => (List.range 4).all (held x))
    && spans.all fun h => (List.range 4).all fun i => !bit h.slices i || s.named i

/-- Does the sequencer keep slice `i` in RUN for want of a plan (R231)? -/
def State.keptForPlan (s : State) (i : Nat) : Bool :=
  (s.pow.planLate && s.num 0x6400 2 == 0 && s.named i) || s.awaitsPlan i

def spanCovers (h : HoldSpan) (i now : Nat) : Bool := bit h.slices i && decide (h.start ≤ now) && decide (now < h.stop)

/-- Is slice `i` in a span of the plan now? -/
def State.inSpan (s : State) (i : Nat) : Bool := s.pow.spans.any fun h => spanCovers h i s.now

/-- May a slice be woken by a span: not in HOLD, and not in OFF (R230, 14 R362)? -/
def State.wakeForSpan (s : State) (i : Nat) : State := if s.pow.state == .hold then s else s.wake i wakeSpan

/-- From the acceptance of a gate commit the slices that its list names are kept in RUN until the plan covers its change
time, so one in NAP or DOZE is woken (R231). -/
def State.keepForPlan (s : State) : State :=
  (List.range 4).foldl (fun s i => if s.awaitsPlan i then s.wakeForSpan i else s) s

/-- HOLD_SPAN_START: a span of the plan begins; a slice in NAP or DOZE is woken for it. -/
def execHoldSpanStart (t : Nat) (sl : Fin 4) (s : State) : Result :=
  s.run t fun s =>
    if s.inSpan sl && !(s.slice sl).held then
      ((s.setSlice sl { s.slice sl with held := true }).count (Num.holdSpans sl)).wakeForSpan sl
    else s

/-- HOLD_SPAN_END: the span of a slice has ended, and the slice follows its power policy. -/
def execHoldSpanEnd (t : Nat) (sl : Fin 4) (s : State) : Result :=
  s.run t fun s => if s.inSpan sl then s else s.setSlice sl { s.slice sl with held := false }

/-- WAKE_PLAN_WRITE: Timekeepers firmware writes the spans of the plan and its end (R231). -/
def execWakePlanWrite (t : Nat) (spans : List HoldSpan) (planEnd : Nat) (s : State) : Result :=
  s.run t fun s =>
    if s.groupActs timekeepersGroup && s.planFits spans planEnd then
      let planned := (s.egress.map fun e => e.2.pendingSets.map fun g => (e.1, g)).flatten
      { s with pow := { s.pow with spans, planEnd, planned, uncovered := [], planLate := false } }
    else s

/-- PLAN_EXPIRED: the sequencer's time passes the end of the plan (R231). -/
def execPlanExpired (t : Nat) (s : State) : Result :=
  s.run t fun s =>
    if s.pow.planEnd = 0 ∨ s.now ≤ s.pow.planEnd ∨ s.pow.planLate then s else
    let hit : List Nat := below 4 s.named
    let s : State := { s with pow.planLate := true }
    let s := hit.foldl (fun s i => s.count (Num.planExpired i)) s
    let act : Nat := s.num 0x6400 2
    let s : State := s.raise 0x1A6 (hit.map fun i => 2 ^ i).sum [byte act]
    if act = 0 then hit.foldl State.wakeForSpan s else s

end Sys2Proof.Machine
end

