-- ==== Sys2Proof/Machine/Power.lean ====
section
/-! DEFINITION. The power sequencer: clocks that lose lock, device states and their transitions, slices, and the adaptive
loops (14; 07 R182). -/
namespace Sys2Proof.Machine

/-! ### Codes and registers (14 Tables 14.9, 11.6) -/

def devCode : DevState → Nat
  | .active => 0 | .quiet => 1 | .hold => 2 | .pairStandby => 3 | .dormant => 4

def devOf (n : Nat) : Option DevState :=
  match n with
  | 0 => some .active | 1 => some .quiet | 2 => some .hold | 3 => some .pairStandby | 4 => some .dormant | _ => none

def sliceCode : SliceState → Nat
  | .run => 0 | .nap => 1 | .doze => 2 | .off => 3

/-- 0xC000.03. -/
def Power.transition (w : Power) : Nat :=
  let code (x : Option (DevState × Bool)) := match x with | some (d, _) => devCode d | none => 0xFF
  code w.queued * 256 + code w.target

/-- The power event, which captures 0xC000.03 and .04. -/
def State.powerEvent (s : State) (flag : Nat) : State :=
  s.raise 0x1B7 (2 ^ flag) (capture [(2, s.pow.transition), (1, s.pow.outcome)])

def State.slicePolicy (s : State) (i : Nat) : Nat := s.num (0xC100 + i) 1

/-! ### Slices (14 R370 to R374; 08 R232) -/

/-- Put a slice into a state now; what it spent in the old one is settled. -/
def State.putSlice (s : State) (i : Nat) (x : SliceState) : State :=
  s.setSlice i { s.slice i with state := x, since := s.now, wakeAt := none, idleSince := none }

/-- A port of a slice that goes OFF: its transmission ends, and the copies queued to it are port-down drops (08 R225). -/
def State.emptyPort (s : State) (p : Nat) : State :=
  let s := (s.stopPort p).dropQueued p fun p c => Num.portDownDrops (roundOf p c)
  s.setEgr p { s.egr p with flushing := false }

/-- A slice goes OFF: its hand is released, and its queues, with their deficits and credits, and its photo-finish are cleared
(07 R177; Table 14.8). -/
def State.sliceOff (s : State) (i : Nat) : State :=
  let s := s.putSlice i .off
  let s := { s with buf := s.buf.releaseHand i }
  ((slicePorts i).foldl State.emptyPort s |>.clearFinish i).fillHands

/-- A slice in OFF begins to leave it. -/
def State.leaveOff (s : State) (i : Nat) : State :=
  let v := s.slice i
  if v.state == .off && v.wakeAt.isNone then s.setSlice i { v with wakeAt := some (s.now + wakeDelay .off) } else s

/-- The wake instant of the next hold span of a slice (R232). -/
def State.nextSpan (s : State) (i : Nat) : Option Nat :=
  ((s.pow.spans.filter fun h => bit h.slices i && decide (s.now < h.start)).map HoldSpan.start).min?

/-- Time an entry takes (Table 14.7). -/
def entryTime : SliceState → Nat
  | .nap => 10 * nsPs | .doze => 400 * nsPs | .off => 10 * usPs | .run => 0

/-- Is the wake lead too short for DOZE (R232)? -/
def State.leadShort (s : State) : Bool := decide (s.num 0x6400 1 < 1600)

/-- The state that an idle slice of the device state may enter: by its policy in QUIET, DOZE in HOLD and PAIR-STANDBY. An entry
into DOZE needs a wake lead of 1,600 ns; by policy the slice takes NAP meanwhile, by device state it waits (R232, R370). -/
def State.restState (s : State) (i : Nat) : Option SliceState :=
  match s.pow.state with
  | .hold => if s.leadShort then none else some .doze
  | .pairStandby => if s.leadShort then none else some .doze
  | .quiet =>
    let v := s.slice i
    let ripe := match v.idleSince with
      | some x => decide (x + s.num (0xC100 + i) 2 * nsPs ≤ s.now)
      | none => false
    if !ripe then none
    else match s.slicePolicy i with
      | 1 => some .nap
      | 2 => some (if s.leadShort then .nap else .doze)
      | _ => none
  | _ => none

/-- Is an entry complete before the wake instant of the slice's next hold span (R232)? In HOLD spans wake no slice (R362). -/
def State.entryFits (s : State) (i : Nat) (x : SliceState) : Bool :=
  s.pow.state == .hold || !(s.inSpan i || s.keptForPlan i) &&
    match s.nextSpan i with
    | some w => decide (s.now + entryTime x < w)
    | none => true

/-- SLICE_IDLE_ENTRY: an idle slice enters NAP or DOZE, when the entry ends before its next hold span (R232). -/
def execSliceIdleEntry (t : Nat) (sl : Fin 4) (s : State) : Result :=
  s.run t fun s =>
    let v := s.slice sl
    if !(v.state == .run) || !s.sliceIdle sl || s.pow.target.isSome || !s.locked .pipeline then s else
    match s.restState sl with
    | none => s
    | some x => if s.entryFits sl x then s.putSlice sl x else s

/-- A frame still arriving in a staging buffer that is full when its slice reaches RUN is lost (03 R63). -/
def State.markFull (s : State) (i : Nat) : State :=
  s.buf.frames.foldl (fun (s : State) e =>
    let v := e.2
    if portSlice v.port == i && decide (v.port < 32) && v.stage == .staging && v.endAt.isNone && !v.refused
        && decide (s.stagingSize v.port ≤ s.staged v.port e.1 + s.arrived v) then
      s.setFrame e.1 { v with stagingDrop := true }
    else s) s

/-- SLICE_REACHES_RUN: the wake delay of a slice has passed (R373). One that leaves OFF has reloaded its configuration, its
order domains expect the next number issued (07 R189), its hand is filled (07 R176), and its ports begin link-up (R460). -/
def execSliceReachesRun (t : Nat) (sl : Fin 4) (s : State) : Result :=
  s.run t fun s =>
    let v := s.slice sl
    match v.wakeAt with
    | some w =>
      if w ≤ s.now && s.locked .pipeline then
        let s := s.markFull sl
        if v.state == .off then ((s.restartFinish sl).putSlice sl .run).fillHands.trainSlice sl else s.putSlice sl .run
      else s
    | none => s

/-! ### The core voltage (14 R363, R378, R380) -/

/-- The highest step in use by any slice, or called for by one. -/
def State.highestStep (s : State) : Nat :=
  ((List.range 4).map fun i => min (s.slice i).step.toNat (s.slice i).goal.toNat).min?.getD 0

/-- The voltage the loop wants, before its envelope. -/
def State.voltageCalled (s : State) : Int := (fusedMillivolts s.highestStep : Int) + s.pow.trim

/-- The voltage the loop wants, within its envelope; its minimum for DORMANT (R363). -/
def State.voltageWanted (s : State) : Nat :=
  if s.pow.sinking then s.num 0xC200 1 else max (s.num 0xC200 1) (min (s.num 0xC200 2) s.voltageCalled.toNat)

/-- Send the next Voltage command when the confirmed voltage is not the one wanted: at most 25 mV a write (R380). After an
AVSBus fault the loop keeps the last confirmed voltage. -/
def State.voltageWrite (s : State) : State :=
  let want := s.voltageWanted
  let mv := s.pow.millivolts
  if s.pow.writing.isSome || s.pow.avs = 2 || want = mv then s else
  let v := if mv < want then min want (mv + 25) else max want (mv - 25)
  { s with pow.writing := some (v, 0, s.now) }.emit (.avsbus v)

/-! ### Device states (14 R362 to R369) -/

/-- Every slice not OFF is woken for a transition. -/
def State.wakeAll (s : State) : State := (List.range 4).foldl (fun (s : State) i => s.wake i wakeTransition) s

/-- A request for a state begins its transition. `pairing`: the pairing logic asks, whose drain has ended before a HOLD. -/
def State.startTransition (s : State) (d : DevState) (pairing : Bool) : State :=
  let s := { s with pow := { s.pow with target := some (d, pairing), drainEnd := none, doneAt := none } }
  match d with
  | .hold =>
    if s.pow.state == .dormant then s
    else if pairing then { s with pow.doneAt := some (s.now + 400 * nsPs) }
    else { s with pow.drainEnd := some (s.now + s.num 0xC000 5 * nsPs) }
  | .pairStandby => { s with pow.drainEnd := some (s.now + s.num 0xC000 5 * nsPs) }
  | .dormant => (List.range 32).foldl (fun (s : State) p => s.takeDown p) { s with pow.timer := s.num 0xC000 6 }
  | .active => s.wakeAll
  | .quiet => if s.pow.state == .active then s else s.wakeAll

/-- The first row of Table 14.4 that refuses a software request, as its outcome. -/
def State.powerRefusal (s : State) (d : DevState) : Option Nat :=
  let role := if s.pairingOn then s.pair.role else .detached
  let rest := d == .hold || d == .dormant
  let byPairing (x : Option (DevState × Bool)) : Bool := x.any Prod.snd
  if role == .standby then some 3
  else if (role == .active || role == .held) && rest then some 3
  else if role == .fenced && (d == .active || d == .quiet) then some 3
  else if d == .dormant && !(s.pow.state == .hold || s.pow.target.map Prod.fst == some .hold) then some 4
  else if byPairing s.pow.target || byPairing s.pow.queued then some 5
  else none

/-- A refused request changes nothing but its outcome. -/
def State.powerRefuse (s : State) (code : Nat) : State :=
  ({ s with pow.outcome := code }.count Num.powerRefused).powerEvent 1

/-- A queued software request that another request replaces (R366). -/
def State.replaceQueued (s : State) : State :=
  match s.pow.queued with
  | some (_, false) => (({ s with pow := { s.pow with outcome := 2, queued := none } }).count Num.powerReplaced).powerEvent 2
  | _ => s

/-- The device has reached the state of the transition in progress. -/
def State.reached (s : State) (d : DevState) (pairing : Bool) : State :=
  let s := { s with pow := { s.pow with
    state := d, target := none, drainEnd := none, doneAt := none
    outcome := if pairing then s.pow.outcome else 1 } }
  (s.count Num.deviceTransitions).powerEvent 0

/-- Start a transition; ACTIVE to QUIET completes at once, and DORMANT is left by way of HOLD alone (Table 14.5), where the
request waits in the queue again. -/
def State.begin (s : State) (d : DevState) (pairing : Bool) : State :=
  let from_ := s.pow.state
  if from_ == .dormant && d != .hold then
    { s.startTransition .hold pairing with pow.queued := some (d, pairing) }
  else
  let s := s.startTransition d pairing
  if from_ == .active && d == .quiet then s.reached .quiet pairing else s

/-- A request that is not refused: it starts, waits in the queue, or has no effect (R365, R366). -/
def State.powerAccept (s : State) (d : DevState) (pairing : Bool) : State :=
  match s.pow.target with
  | some _ =>
    let s := s.replaceQueued
    { s with pow := { s.pow with queued := some (d, pairing), outcome := if pairing then s.pow.outcome else 0 } }
  | none =>
    let s := if pairing then s else { s with pow.outcome := 0 }
    if s.pow.state == d then s else s.begin d pairing

/-- A software request (R364, R365). -/
def State.powerRequest (s : State) (d : DevState) : State :=
  match s.powerRefusal d with
  | some code => s.powerRefuse code
  | none => s.powerAccept d false

/-- A request of the pairing logic; none when pairing is off (R364). -/
def State.pairRequest (s : State) (d : DevState) : State := s.powerAccept d true

/-- The queued request, checked again (R366). -/
def State.startQueued (s : State) : State :=
  match s.pow.queued with
  | none => s
  | some (d, pairing) =>
    let s := { s with pow.queued := none }
    if pairing then (if s.pow.state == d then s else s.begin d true)
    else match s.powerRefusal d with
      | some code => s.powerRefuse code
      | none => if s.pow.state == d then { s with pow.outcome := 1 } else s.begin d false

/-- The copy in transmission and every queued copy of a port are dropped; `n` counts each (R362; 12 R325). -/
def State.endCopies (s : State) (n : Nat → Nat) : State :=
  (List.range allPorts).foldl (fun (s : State) p =>
    let e := s.egr p
    let tx := b1 e.tx.isSome + b1 e.suspended.isSome
    let s := (s.stopPort p).count (n p) tx
    let s := s.dropQueued p fun _ _ => n p
    let s := s.setEgr p { s.egr p with flushing := e.flushing }
    if p = hostPort then { s with host.rxWait := [] } else s) s

/-- HOLD_DRAIN_END: the hold drain limit has passed (R362). -/
def execHoldDrainEnd (t : Nat) (s : State) : Result :=
  s.run t fun s =>
    match s.pow.drainEnd with
    | some x =>
      if x ≤ s.now then
        let s := s.endCopies Num.powerHoldDrops
        { s with pow := { s.pow with drainEnd := none, doneAt := some (s.now + 400 * nsPs) } }
      else s
    | none => s

/-- The slices at the end of a transition (Table 14.3): those not OFF doze in HOLD and PAIR-STANDBY, but for one that the wake
plan keeps in RUN, and none with a wake lead below 1,600 ns (08 R232). -/
def State.settleAll (s : State) (d : DevState) : State :=
  if (d == .hold || d == .pairStandby) && !s.leadShort then
    (List.range 4).foldl (fun (s : State) i =>
      if (s.slice i).state == .off || !s.entryFits i .doze then s else s.putSlice i .doze) s
  else s

/-- Send what waits in the pending bits of vectors that are no longer masked (R284). -/
def State.sendPending (s : State) : State :=
  let due := (s.host.msixPending.filter fun e =>
    e.2 && !(tget s.host.msix e.1 {}).masked && !s.host.functionMask).map Prod.fst
  due.foldl (fun (s : State) v => { s with host.msixPending := tdel s.host.msixPending v }.emit (.msix v)) s

/-- A clock at the end of DORMANT: the time it held at entry plus the interval that the always-on count of the reference has
counted; it goes on at its last rate (R363). -/
def State.carryClock (s : State) (d : Nat) : State := s.setClock d { s.clock d with at_ := s.now, value := (s.clockNow d) }

/-- What the exit from DORMANT restores (R368): slices and the link-up of their ports, cores with their watchdogs, the vectors
that waited, and the management lanes; the age tick goes on from where it stood. -/
def State.leaveDormant (s : State) : State :=
  let spent := s.now - s.pow.dormantAt
  let s := (List.range 4).foldl (fun (s : State) i =>
    if s.slicePolicy i = 3 || s.boot.state != .complete then s
    else ((s.restartFinish i).putSlice i (if s.leadShort then .run else .doze)).fillHands.trainSlice i) s
  let groups := s.proc.groups.map fun (e : Nat × ProcGroup) => (e.1, { e.2 with deadline := e.2.deadline.map (· + spent) })
  let s := { s with pow.timerEnd := none, proc.groups := groups, fdb.tickAt := s.fdb.tickAt + spent }
  let asleep := (List.range 16).filter fun n => (s.core n).mode == .sleep
  ((asleep.foldl State.resumeCore s).sendPending).trainManagement

/-- Has the transition in progress reached its end? -/
def State.transitionDone (s : State) (d : DevState) : Bool :=
  s.pow.drainEnd.isNone
    && (match s.pow.doneAt with
      | some x => decide (x ≤ s.now)
      | none => true)
    && (match d with
      | .active => (List.range 4).all fun i => (s.slice i).state == .run || (s.slice i).state == .off
      | .quiet => (List.range 4).all fun i => (s.slice i).state == .run || (s.slice i).state == .off
      | .dormant => false
      | _ => true)

/-- TRANSITION_COMPLETE: the transition in progress is complete, and the queued request starts (R366, R367). DORMANT is
reached by DORMANT_ENTRY. -/
def execTransitionComplete (t : Nat) (s : State) : Result :=
  s.runAny t fun s =>
    match s.pow.target with
    | some (d, pairing) =>
      if s.transitionDone d then
        let asleep := s.dormant
        let s := if asleep then (s.carryClock 0).carryClock 1 else s
        let s := { s with pow.state := d }
        let s := if asleep then s.leaveDormant else s
        ((s.settleAll d).reached d (pairing || asleep)).startQueued
      else s
    | none => s

/-- Every running ring stops with REASON 2 (10 R283). -/
def State.stopRings (s : State) (reason : Nat) : State :=
  (List.range 36).foldl (fun (s : State) r =>
    let g := s.ring r
    if g.state == .running || g.state == .stopping then
      (s.setRing r { g with
        state := .stopped, reason := BitVec.ofNat 4 reason, unreported := 0, coalEnd := none
        fetched := [], failed := false }).ringEvent r 2
    else s) s

/-- A tail that is cached is written back; the caches of heads and tails stand empty (R363, Table 14.8). -/
def State.emptyCaches (s : State) : State := { s with flow := { s.flow with headCache := [], tailCache := [] } }

/-- Every processor core is saved (11 R299). -/
def State.saveCores (s : State) : State :=
  ((List.range 16).filter fun n => (s.core n).mode == .executing || (s.core n).mode == .wait).foldl State.sleepCore s

/-- The value of a clock now, no longer synchronised, from which DORMANT counts; and the dormant wake timer starts, as it stood
when the entry began (R369). -/
def State.dormantClocks (s : State) : State :=
  let hold (s : State) (d : Nat) : State := s.setClock d { s.clock d with value := s.clockNow d, at_ := s.now, synced := false }
  let s := hold (hold s 0) 1
  { s with pow := { s.pow with
    dormantAt := s.now, timerEnd := if s.pow.timer = 0 then none else some (s.now + s.pow.timer * nsPs) } }

/-- Steps 2 to 4 of R363: tails are written back, rings stop, cores are saved. -/
def State.restUnits (s : State) : State := (s.emptyCaches.stopRings 2).saveCores

/-- The packet buffer is not kept through DORMANT, and is empty at its entry (Table 14.8): the copies and frames that are left
in the core go with it. -/
def State.emptyBuffer (s : State) : State :=
  let s := s.buf.copies.foldl (fun (s : State) e =>
    match s.copy e.1 with
    | some k => s.downDrop e.1 k
    | none => s) s
  let s := s.buf.frames.foldl (fun (s : State) e =>
    if e.2.stage == .staging then s.dropFrame e.1 else (s.frameGone e.1).dropFrame e.1) s
  { s with
    buf := { s.buf with release := s.buf.iseq, finish := s.buf.finish.map fun (e : Nat × Finish) => (e.1, { e.2 with fifo := [] }) }
    flow.entered := [] }

/-- Step 7 of R363, once the cores are saved and the voltage is confirmed at its minimum, or a fault of the AVSBus keeps it
where it is (R380): every domain but the always-on domain goes off. A ring or a core started since step 3 rests again. -/
def State.switchOff (s : State) : State :=
  if !s.pow.sinking || s.pow.writing.isSome || s.proc.cores.any (fun e => e.2.mode == .sleep && decide (s.now < e.2.restsAt)) then s
  else
  let s := s.restUnits.dormantClocks
  let s := ((List.range 4).foldl State.sliceOff s).emptyBuffer
  let s := { s with pow := { s.pow with state := .dormant, sinking := false } }
  let s := { s with pair.laneUp := 0, wires := [] }
  ({ s with host.rxWait := [] }.reached .dormant false).startQueued

/-- Steps 2 to 6 of R363: the voltage goes to the minimum of its envelope by the writes of the voltage loop. -/
def State.goDormant (s : State) : State :=
  { s.restUnits with pow.sinking := true }.voltageWrite.switchOff

/-- DORMANT_ENTRY: every link-down flush is complete, and the steps of R363 follow; at the command again, once the cores are
saved, step 7. -/
def execDormantEntry (t : Nat) (s : State) : Result :=
  s.run t fun s =>
    let busy := (s.egress.any fun e => e.2.flushing) || (s.fdb.flushes.any fun f => !f.command)
    if s.pow.sinking then s.switchOff
    else if s.pow.target == some (.dormant, false) && !busy then s.goDormant else s

/-- A wake source of DORMANT: 0 WAKE_N, 1 service button, 2 timer, each under its bit of 0xC000.07 (R369). It requests
HOLD. -/
def State.wakeDevice (s : State) (source : Nat) : State :=
  if s.dormant && s.pow.target.isNone && bit (s.num 0xC000 7) source then
    { s with pow := { s.pow with target := some (.hold, false), wakeSource := source + 1 } }.powerEvent 3
  else s

/-- WAKE_N_ASSERT: WAKE_N has been held low for 1 µs. -/
def execWakeNAssert (t : Nat) (s : State) : Result := s.runAny t fun s => s.wakeDevice 0

/-- DORMANT_WAKE_TIMER: the dormant wake timer, counted from the end of the entry, expires. -/
def execDormantWakeTimer (t : Nat) (s : State) : Result :=
  s.runAny t fun s =>
    match s.pow.timerEnd with
    | some x => if x ≤ s.now then { s with pow.timerEnd := none }.wakeDevice 2 else s
    | none => s

/-- Does a press of the service button wake the device, which makes it neither short nor long (R369; 17 R440)? -/
def State.pressWakes (s : State) : Bool := s.dormant && s.pow.target.isNone && bit (s.num 0xC000 7) 1

/-- SERVICE_BUTTON_WAKE: a press of the service button in DORMANT makes no withdraw request; it is counted as a press
(R369; 17 R440). -/
def execServiceButtonWake (t : Nat) (s : State) : Result :=
  s.runAny t fun s =>
    if s.pressWakes then (s.wakeDevice 1).count (Num.buttonPresses 2) else s

/-! ### Clocks that lose lock (14 R359) -/

/-- Number of a PLL in the order of Table 14.1. -/
def pllNumber : Pll → Nat
  | .alwaysOn => 0 | .pipeline => 1 | .marshal => 2 | .judge => 3 | .memory => 4
  | .lane n => 5 + n.val | .hostPhy => 41

/-- The enabled front port that uses line `n`. -/
def State.lanePort (s : State) (n : Nat) : Option Nat :=
  (List.range 32).find? fun p => decide (p ≤ n) && decide (n < p + modeLanes (s.portMode p))

/-- Does the Starter boost (15 Table 15.5): it boots, verifies a boot set, makes the identity keys or signs a report (DESIGN
CHOICE, log entry 86)? -/
def State.starterBoosts (s : State) : Bool :=
  s.boot.state == .booting || s.boot.updating.isSome || s.ao.identity == .generating
    || s.boot.hostSlot.generating.isSome || s.boot.anchorSlot.generating.isSome

/-- Is the host link in L1: in DORMANT, and where the host has enabled ASPM L1 at instants that the part does not choose (10
Table 10.1, R283; log entry 86)? -/
def State.hostInL1 (s : State) : Bool :=
  s.dormant || (s.host.aspmL1 && s.host.proto != .down && Config.linkRests s.now)

/-- Does the PLL run (Table 14.1)? The host PHY's stops in L1. -/
def State.pllRuns (s : State) (p : Pll) : Bool :=
  match p with
  | .alwaysOn => s.starterBoosts
  | .judge => !s.dormant && !((s.group judgesGroup).state == .stopped)
  | .lane n => !s.dormant &&
      (if n.val < 32 then (s.lanePort n).isSome
      else if n.val < 34 then s.pairingOn && bit (s.num 0xA000 3) (n.val - 32)
      else s.domainRole != 0)
  | .hostPhy => !s.hostInL1
  | _ => !s.dormant

/-- Output and bidirectional balls by what drives them (17 Tables 17.1, 17.3). -/
inductive Ball where
  /-- the transmitter of a lane -/
  | lane (n : Fin 36)
  /-- the signalling of the host link that the always-on domain keeps for L1, and every other output of the host block -/
  | hostKept
  | host
  | moduleI2c
  | avsBus
  /-- FL_*, SNS_*, LED_*, THERM_N, TRIP_N and TDO -/
  | alwaysOn
  deriving DecidableEq, Repr

/-- Does the part drive the ball, or is it high-impedance: COLD_RST_N is low, its domain is off, or its lane's PLL is stopped (14
R361; 17 R430, R441)? -/
def State.drives (s : State) (b : Ball) : Bool :=
  !s.ao.coldLow && match b with
  | .lane n => s.pllRuns (.lane n)
  | .hostKept | .alwaysOn => true
  | .host | .moduleI2c | .avsBus => !s.dormant

/-- A Sallar lane that stops is down; a management lane keeps no state. -/
def State.sallarLaneGone (s : State) (l : Nat) : State :=
  if bit s.pair.laneUp.toNat l then
    let s := { s with pair.laneUp := s.pair.laneUp &&& ~~~(1#2 <<< l) }
    s.raise 0x1B1 (2 ^ l) [byte s.pair.laneUp.toNat]
  else s

/-- PLL_LOCK_LOST: a running PLL loses lock; the clocks it drives are gated until it relocks. A lane that stops takes its
port's link down. -/
def execPllLockLost (t : Nat) (pll : Pll) (s : State) : Result :=
  s.runAny t fun s =>
    if !s.pllRuns pll || !s.locked pll then s else
    let s := { s with pow := { s.pow with
      unlocked := s.pow.unlocked ++ [pll], gatedAt := if pll = Pll.pipeline then s.now else s.pow.gatedAt } }
    let s := (s.count (Num.pllLosses (pllNumber pll))).raise 0x1B8 1 [byte (pllNumber pll)]
    match pll with
    | .lane n =>
      match s.lanePort n with
      | some p => s.takeDown p
      | none => s.sallarLaneGone (n.val - 32)
    | _ => s

/-- Gap timers do not advance while the pipeline clock is gated: what waits is dated later by that time. -/
def State.shiftGaps (s : State) (d : Nat) : State :=
  { s with buf.finish := s.buf.finish.map fun (e : Nat × Finish) =>
      (e.1, { e.2 with waiting := e.2.waiting.map fun a => { a with at_ := a.at_ + d } }) }

/-- One decision of loop `i`: `clamped` when its rule called for a value beyond its envelope. -/
def State.atBound (s : State) (i : Nat) (clamped : Bool) (cap : List Byte) : State :=
  let was := bit s.pow.held.toNat i
  let s := { s with pow.held := BitVec.ofNat 5 (setBits s.pow.held.toNat i 1 (b1 clamped)) }
  if clamped then
    let s := s.count (Num.loopHeld i)
    if was then s else s.raise 0x1B9 (2 ^ i) cap
  else s

/-- Counted steps of loop `i` by the change of its value. -/
def State.loopStep (s : State) (i : Nat) (old new : Nat) : State :=
  if old < new then s.count (Num.loopUp i) else if new < old then s.count (Num.loopDown i) else s

/-! ### The voltage loop (14 R378 to R380) -/

/-- The confirmed voltage at which a slice may move to step `n` (R379): the fused minimum with the trim, within the envelope;
after an AVSBus fault, the fused minimum (R380). -/
def State.voltageFor (s : State) (n : Nat) : Nat :=
  if s.pow.avs = 2 then fusedMillivolts n
  else max (s.num 0xC200 1) (min (s.num 0xC200 2) ((fusedMillivolts n : Int) + s.pow.trim).toNat)

/-- A slice moves to the step called for once the confirmed voltage suffices (R379). -/
def State.moveSteps (s : State) : State :=
  (List.range 4).foldl (fun (s : State) i =>
    let v := s.slice i
    if v.goal < v.step && s.pow.writing.isNone && decide (s.voltageFor v.goal.toNat ≤ s.pow.millivolts) then
      (s.setSlice i { v with step := v.goal }).count (Num.loopUp 1)
    else s) s

/-- Slice clock of a step, in 100 kHz. -/
def stepClock (n : Nat) : Nat :=
  match n with
  | 0 => 13500 | 1 => 10125 | 2 => 6750 | _ => 3375

/-- The lowest step at which the slice carries its ports (R376); `mode` gives the port modes in force. -/
def sliceFloor (mode : Nat → Nat) (i : Nat) : Nat :=
  let rate := (below 32 fun p => portSlice p == i).map (fun p => modeRate (mode p)) |>.sum
  let frames := if i = 0 then 100 else if i = 3 then 150 else 0
  let bytes := if i = 0 then 25 else if i = 3 then 50 else 0
  let fits (n : Nat) : Bool :=
    decide (rate * 10 ^ 9 + frames * 10 ^ 6 * 672 ≤ stepClock n * 10 ^ 5 * 672)
      && decide (rate * 125 * 10 ^ 6 + bytes * 10 ^ 9 ≤ 128 * stepClock n * 10 ^ 5)
  if fits 3 then 3 else if fits 2 then 2 else if fits 1 then 1 else 0

/-- Call for a step of a slice, and never for one below its floor: a lower one is taken at once, a higher one once the voltage is
there (R376, R377, R379). -/
def State.callStep (s : State) (i : Nat) (n : Nat) : State :=
  let v := s.slice i
  let g := BitVec.ofNat 2 (min n (sliceFloor s.portMode i))
  if v.step ≤ g then (s.setSlice i { v with step := g, goal := g }).loopStep 1 g.toNat v.step.toNat
  else ((s.setSlice i { v with goal := g }).moveSteps).voltageWrite

/-- The loop's value is at the edge of its envelope where its rule calls for one beyond (R375, R384). -/
def State.clampTrim (s : State) : State :=
  let v : Int := max (s.num 0xC200 1) (min (s.num 0xC200 2) s.voltageCalled)
  { s with pow.trim := s.pow.trim + (v - s.voltageCalled) }

/-- VOLTAGE_LOOP_EVAL: the worst monitor margin, with the low and high marks of the monitors (R378). -/
def execVoltageLoopEval (t : Nat) (margin low high : Int) (s : State) : Result :=
  s.run t fun s =>
    let short := decide (margin < low)
    let run := if high < margin then s.pow.above + 1 else 0
    let lower := decide (10 ≤ run)
    let old := s.voltageWanted
    let step : Int := if short then 5 else if lower then -5 else 0
    let s := { s with pow := { s.pow with margin, trim := s.pow.trim + step, above := if lower then 0 else run } }
    let called := s.voltageCalled
    let beyond := decide ((s.num 0xC200 2 : Int) < called)
    let clamped := beyond || decide (called < s.num 0xC200 1)
    let shortfall := beyond && short
    let was := s.pow.shortfall
    let s := { s.clampTrim with pow.shortfall := shortfall }
    let s := s.atBound 0 clamped (capture [(2, s.voltageWanted)])
    let s := if shortfall && !was then s.raise 0x1B9 (2 ^ 6) (capture [(2, s.voltageWanted)]) else s
    (s.loopStep 0 old s.voltageWanted).voltageWrite

/-- AVSBUS_STATUS_POLL: the regulator reports whether the transition is done (R380). -/
def execAvsbusStatusPoll (t : Nat) (done : Bool) (s : State) : Result :=
  s.run t fun s =>
    match s.pow.writing with
    | some (v, _, _) =>
      if done then
        ({ s with pow := { s.pow with millivolts := v, writing := none, avs := 0 } }.moveSteps).voltageWrite.switchOff
      else s
    | none => s

/-- AVSBUS_TIMEOUT: a write not done within 100 µs is retried, up to three times; then the fault is recorded (R380). -/
def execAvsbusTimeout (t : Nat) (s : State) : Result :=
  s.run t fun s =>
    match s.pow.writing with
    | some (v, n, at_) =>
      if s.now < at_ + 100 * usPs then s
      else if n < 3 then
        ({ s with pow := { s.pow with writing := some (v, n + 1, s.now), avs := 1 } }.emit (.avsbus v)).count Num.avsRetries
      else
        let s := { s with pow := { s.pow with writing := none, avs := 2 } }.count Num.avsFaults
        (s.raise 0x1B9 (2 ^ 5) (capture [(2, s.pow.millivolts)])).switchOff
    | none => s

/-! ### The frequency loop (14 R376, R377) -/

/-- The fullest staging buffer of a slice's ports now. -/
def State.heldNow (s : State) (i : Nat) : Nat :=
  ((below 32 fun p => portSlice p == i).map fun p => min (s.stagingSize p) (s.staged p s.buf.nextFrame)).max?.getD 0

/-- One slice of an evaluation: `busy` is the share of its clocks in which it accepted a frame, in thousandths. -/
def State.frequencyOf (s : State) (i busy : Nat) : Bool × State :=
  let v := s.slice i
  let held := s.heldNow i
  let fill := max v.peak held
  let s := s.setSlice i { v with peak := held }
  let floor := sliceFloor s.portMode i
  let n := v.step.toNat
  if v.state == .off then (false, s)
  else if busy < 400 && fill ≤ 2048 then
    if s.num 0xC200 3 ≤ n then (n < 3, s)
    else if floor ≤ n then (false, s)
    else (false, s.callStep i (n + 1))
  else if (800 < busy || 8192 < fill) && 0 < n then
    if s.pow.shortfall && n ≤ floor then (false, s) else (false, s.callStep i (n - 1))
  else (false, s)

/-- FREQUENCY_LOOP_EVAL: each slice moves at most one step (R376). -/
def execFrequencyLoopEval (t : Nat) (busy0 busy1 busy2 busy3 : Nat) (s : State) : Result :=
  s.run t fun s =>
    let (c0, s) := s.frequencyOf 0 busy0
    let (c1, s) := s.frequencyOf 1 busy1
    let (c2, s) := s.frequencyOf 2 busy2
    let (c3, s) := s.frequencyOf 3 busy3
    s.atBound 1 (c0 || c1 || c2 || c3) [byte (s.num 0xC200 3)]

/-- A commit that raises the floor of a slice brings it to its new floor (R377). -/
def State.raiseToFloor (s : State) (i : Nat) : State :=
  let f := sliceFloor s.portMode i
  if f < (s.slice i).step.toNat then s.callStep i f else s

/-! ### Buffer threshold, flow placement and receivers (07 R182; 14 R381 to R383) -/

/-- BUFFER_THRESHOLD_EVAL: the loop of A, every 64 µs (07 R182; R382). -/
def execBufferThresholdEval (t : Nat) (s : State) : Result :=
  s.run t fun s =>
    let a := s.buf.a.toNat
    let d := max 1 (a / 8)
    let free := s.buf.size - s.buf.u
    let lo := s.num 0xC200 4
    let hi := s.num 0xC200 5
    let up := s.buf.thresholdRefused && decide (s.buf.size ≤ 4 * free)
    let down := decide (16 * free < s.buf.size)
    let s := { s with buf.thresholdRefused := false }
    let called : Int := if up then a + d else if down then (a : Int) - d else a
    let new := max lo (min hi called.toNat)
    let clamped := decide (called ≠ (new : Int))
    let s := { s with buf.a := BitVec.ofNat 8 new }.loopStep 3 a new
    s.atBound 3 clamped [byte new]

/-- PLACEMENT_LOOP_EVAL: the loop of P, every millisecond (R383). -/
def execPlacementLoopEval (t : Nat) (s : State) : Result :=
  s.run t fun s =>
    let p := s.flow.threshold.toNat
    let heads := (s.flow.headCache.map fun e => e.2.length).sum
    let called := if 32768 < s.pow.replaced then p + 1 else if s.pow.replaced < 2048 && heads < 131072 then p - 1 else p
    let new := max (s.num 0xC200 6) (min (s.num 0xC200 7) called)
    let s := { s with pow.replaced := 0, flow.threshold := BitVec.ofNat 8 new }.loopStep 4 p new
    s.atBound 4 (called ≠ new) [byte new]

/-- Is the lane trained: its line's port is up, or it is a Sallar or management lane? -/
def State.laneTrained (s : State) (n : Nat) : Bool :=
  decide (32 ≤ n) || match s.lanePort n with
    | some p => (s.port p).link == .up
    | none => false

/-- RECEIVER_ADAPTATION: the receiver of a lane calls for a CTLE code, and moves its FFE and DFE; a lane whose bit is clear
keeps what it found at link-up (R381). -/
def execReceiverAdaptation (t : Nat) (lane : Fin 36) (code : Nat) (s : State) : Result :=
  s.run t fun s =>
    if !bit (s.num 0xC200 8) lane || !s.laneTrained lane || !s.locked (.lane lane) then s else
    let top := s.num 0xC200 9
    let old := tget s.pow.codes lane 0
    let new := min code top
    let s := ({ s with pow.codes := tset 0 s.pow.codes lane new }.adaptTaps lane).loopStep 2 old new
    s.atBound 2 (top < code) [byte lane]

/-- At a commit of group 0xC0 each loop whose value lies outside its envelope moves to the nearer edge (R384). -/
def State.clampLoops (s : State) : State :=
  let a := max (s.num 0xC200 4) (min (s.num 0xC200 5) s.buf.a.toNat)
  let p := max (s.num 0xC200 6) (min (s.num 0xC200 7) s.flow.threshold.toNat)
  let top := s.num 0xC200 9
  let s := { s with
    buf.a := BitVec.ofNat 8 a
    flow.threshold := BitVec.ofNat 8 p
    pow.codes := s.pow.codes.map fun (e : Nat × Nat) => (e.1, min e.2 top) }
  let low := s.num 0xC200 3
  let s := (List.range 4).foldl (fun (s : State) i =>
    if low < (s.slice i).step.toNat then s.callStep i low else s) s
  s.clampTrim.voltageWrite

end Sys2Proof.Machine
end

