-- ==== Sys2Proof/Machine/Host.lean ====
section
/-! DEFINITION. The host link, its resets, the rings, MSI-X masks and the HDM decoders (10 R263 to R286; 17 R435). -/
namespace Sys2Proof.Machine

/-! ### The host link (10 R263, R281, R282, Table 10.7) -/

def protoCode : HostProto → Nat
  | .down => 0 | .cxl => 1 | .pcie => 2

/-- HOST_LINK. -/
def State.hostLinkWord (s : State) : Nat :=
  let h := s.host
  flagIf s.hostUp 12 + flagIf h.memEn 11 + flagIf h.cacheEn 10 + protoCode h.proto * 256 + h.speed.toNat * 16 + h.width.toNat

def State.hostLinkEvent (s : State) (flags : Nat) : State := s.raise 0x1AB flags (capture [(4, s.hostLinkWord)])

/-! ### The counter dump (16 R413) -/

/-- SNAP_STATUS (02 Table 2.9). -/
def Counters.status (c : Counters) : Nat :=
  c.number.toNat * 2 ^ 16 + flagIf c.overrun 2 + flagIf c.bank 1 + flagIf (c.phase != .idle) 0

/-- An event of the snapshot. -/
def State.snapEvent (s : State) (flags : Nat) : State := s.raise 0x186 flags (capture [(4, s.cnt.status)])

/-- The dump fails: the remaining writes are abandoned, and the snapshot stands. -/
def State.dumpFails (s : State) : State :=
  ({ s with cnt.phase := .idle }.count Num.dumpsFailed).snapEvent 8

def Counters.dumpBase (c : Counters) : Nat := c.dumpHi.toNat * 2 ^ 32 + c.dumpLo.toNat * 2 ^ 12
/-- The current bank. -/
def Counters.current (c : Counters) : Tab Nat := if c.bank then c.bank1 else c.bank0

/-- Counter numbers in use, one above the highest (16 R412). -/
def counterNumbers : Nat := 0xE8000

/-- The first `n` counters of the current bank as a dump writes them (R413). -/
def Counters.dumpBytes (c : Counters) (n : Nat) : List Byte :=
  ((List.range n).map fun i => leBytes 8 (counterRead c.current i)).flatten

/-- A dump in progress fails when the host link goes down or Bus Master Enable clears; how many counters it has written before
is free (log entry 8). -/
def State.dumpCut (s : State) : State :=
  if s.cnt.phase == .dumping then
    let (n, s) := s.free
    (s.emit (.dma s.cnt.dumpAt (s.cnt.dumpBytes (n % counterNumbers)))).dumpFails
  else s

/-- P32 goes down: its queues are to be flushed, and what TX rings had fetched and not taken in is discarded (R281). -/
def State.hostPortDown (s : State) : State :=
  let s := s.dumpCut.stopPort hostPort
  (List.range 16).foldl (fun (s : State) r =>
    let g := s.ring r
    if g.fetched.isEmpty then s
    else (s.setRing r { g with fetched := [], failed := false }).count Num.fetchedDiscarded g.fetched.length) s

/-- What a change `f` of the host link leaves of P32. -/
def State.hostChange (s : State) (f : State → State) : State :=
  let was := s.hostUp
  let s := f s
  if was && !s.hostUp then s.hostPortDown else s

/-- A width and a speed of Table 10.2. -/
def linkRate (cxl : Bool) (speed width : Nat) : Bool :=
  decide (speed ≤ 5) && decide ((if cxl then 3 else 1) ≤ speed) && [1, 2, 4, 8].contains width

/-- May the host link train: with PERST_N high and boot past step 3; in RECOVERY and FAILED the host link remains available (15
R395, R396; 17 R435)? -/
def State.mayTrain (s : State) : Bool := s.ao.perstHigh && (decide (4 ≤ s.boot.step) || s.boot.state != .booting)

/-- HOST_LINK_TRAINED: training ends in CXL mode or in PCIe fallback; below x8 at 32 GT/s it is degraded (R263, R265). -/
def execHostLinkTrained (t : Nat) (cxl : Bool) (speed width : Nat) (cache mem : Bool) (s : State) : Result :=
  s.run t fun s =>
    if !s.mayTrain || !(s.host.proto == .down) || !linkRate cxl speed width then s else
    let s := { s with host := { s.host with
      proto := if cxl then .cxl else .pcie
      speed := BitVec.ofNat 4 speed, width := BitVec.ofNat 4 width
      cacheCap := cxl && cache, memCap := cxl && mem } }
    s.hostLinkEvent (1 + flagIf (decide (speed < 5) || decide (width < 8)) 2)

/-- The window of a dictionary principal is reset: a command in progress completes and stands, its result discarded. -/
def State.resetWindows (s : State) : State :=
  let byWindow (w : Waiting) : Bool := match w.src with
    | .secure => true
    | .nonsecure => true
    | _ => false
  let lose (w : Waiting) : Waiting := if byWindow w then { w with lost := true } else w
  { s with
    dict := { s.dict with secure := {}, nonsecure := {}, served := s.dict.served.map lose }
    rules.waiting := s.rules.waiting.map lose }

/-- The registers of the rule, FDB and flow command units; a command in progress completes and stands. -/
def State.resetUnits (s : State) : State :=
  let f := s.fdb
  let w := s.flow
  { s with
    rules := { s.rules with row := 0, buf := 0 }
    fdb := { f with
      cursor := 0, keyLo := 0, keyHi := 0, entry := 0, index := 0, count := 0, code := 0, shadowIdx := 0, nextBuf := [] }
    flow := { w with
      cursor := 0, index := 0, count := 0, code := 0, hdmLine := 0
      key := 0, mask := 0, headReg := 0, tailReg := 0, nextBuf := [] } }

/-- Every ring is STOPPED with REASON 1 and its registers reset; a ring that ran has stopped. -/
def State.resetRings (s : State) : State :=
  let ran := below 36 fun r => (s.ring r).state == .running || (s.ring r).state == .stopping
  let s := { s with host := { s.host with rings := [], nextTx := 0 } }
  ran.foldl (fun (s : State) r => s.ringEvent r 2) s

/-- The effects that the resets of Table 10.14 share: of configuration space, the BAR addresses and Bus Master Enable; the
error registers of AER are sticky. -/
def State.hostBlockReset (s : State) : State :=
  let s := s.hostChange fun s => { s with host := { s.host with busMaster := false } }
  let s := { s with host := { s.host with
    msix := [], msixPending := [], functionMask := false, aspmL1 := false, bar0 := 0, bar2 := 0, bar4 := 0 } }
  s.resetWindows.resetUnits.resetRings

/-- HOST_LINK_RESET: a conventional reset, in which PERST_N falls, a hot reset, or the link going down. -/
def State.hostLinkReset (s : State) (perst : Bool) : State :=
  let was := s.host.proto
  let s := if perst then { s with ao.perstHigh := false } else s
  let s := s.hostBlockReset
  let s := { s with host := { s.host with
    proto := .down, speed := 0, width := 0, cacheCap := false, memCap := false, cacheEn := false, memEn := false
    decoders := [], component := [], errors := {}, resets := s.host.resets + 1 } }
  if was == .down then s else s.hostLinkEvent 2

def execHostLinkReset (t : Nat) (kind : HostReset) (s : State) : Result :=
  mapNext (s.runAo t fun s => s.hostLinkReset (kind = .conventional)) fun s =>
    { s with ao.perstHigh := s.ao.perstHigh && kind != .conventional }

/-- FLR: the CXL.io state alone (R282). -/
def execFlr (t : Nat) (s : State) : Result :=
  s.runAny t fun s => if s.host.proto == .down then s else s.hostBlockReset

/-- Bits of the error registers that a link error and a poisoned write set, as PCIe 5.0 and CXL 2.0 place them (log entry 80). -/
def aerInternal : Nat := 22
def aerPoisoned : Nat := 12
def aerAdvisory : Nat := 13
def rasRetry : Nat := 8
def aerBadTlp : Nat := 6
def rasCrc : Nat := 2

/-- One more bit of a sticky error register. -/
def setError (w : Word) (b : Nat) : Word := w ||| BitVec.ofNat 32 (2 ^ b)

/-- The severity that the host has set for an uncorrectable error. -/
def LinkErrors.severity (e : LinkErrors) (b : Nat) : AerKind := if bit e.aerSeverity.toNat b then .fatal else .nonFatal

/-- An error that retry cannot recover: in the RAS capability, and through AER with the severity the host has set (R286). -/
def State.linkError (s : State) : State :=
  let e := s.host.errors
  { s with host := { s.host with errors := { e with
      aerStatus := setError e.aerStatus aerInternal
      rasStatus := setError e.rasStatus rasRetry } } }.emit (.aer (e.severity aerInternal))

/-- A poisoned write received: AER's advisory (R269). -/
def State.aerAdvise (s : State) : State :=
  let e := s.host.errors
  { s with host := { s.host with errors := { e with
      aerStatus := setError e.aerStatus aerPoisoned
      aerCorrectable := setError e.aerCorrectable aerAdvisory } } }.emit (.aer .advisory)

/-- A CRC error that the link-layer retry recovers: counted as correctable in the RAS capability and in AER, and no event
(R286). -/
def State.linkRetried (s : State) : State :=
  let e := s.host.errors
  { s with host := { s.host with errors := { e with
      aerCorrectable := setError e.aerCorrectable aerBadTlp
      rasCorrectable := setError e.rasCorrectable rasCrc } } }.emit (.aer .correctable)

/-- HOST_LINK_ERROR: recorded in the RAS capability, signalled through AER, and the host-link event (R286); an error that retry
recovers is only counted. -/
def execHostLinkError (t : LinkError) (s : State) : Result :=
  s.runAny t.at_ fun s =>
    if s.host.proto == .down then s else if t.recovered then s.linkRetried else s.linkError.hostLinkEvent 8

/-- PERST_N_RELEASE: with PERST_N high the host link may train, once boot has reached step 4 (17 R435). -/
def execPerstNRelease (t : Nat) (s : State) : Result :=
  mapNext (s.runAo t fun s => s) fun s => { s with ao.perstHigh := true }

/-- The address of a BAR as the host assigns it: the bits below the BAR's size read 0 (R267). -/
def barSpan : Bar → Nat
  | .bar0 => 2 ^ 25 | .bar2 => 2 ^ 18 | .bar4 => 2 ^ 16
def HostIf.setBar (h : HostIf) (b : Bar) (addr : BitVec 64) : HostIf :=
  let a := BitVec.ofNat 64 (alignDown addr.toNat (barSpan b))
  match b with
  | .bar0 => { h with bar0 := a }
  | .bar2 => { h with bar2 := a }
  | .bar4 => { h with bar4 := a }

/-- CONFIGURATION_WRITE: Bus Master Enable, the CXL enables, the MSI-X function mask, a BAR's address, ASPM L1 or AER's registers;
completed in every device state. -/
def execConfigurationWrite (t : Nat) (bit : CfgBit) (value : Bool) (s : State) : Result :=
  s.runAny t fun s =>
    if s.host.proto == .down then s else
    match bit with
    | .busMaster => s.hostChange fun s => { s with host.busMaster := value }
    | .cxlCache => { s with host.cacheEn := value && s.host.cacheCap }
    | .cxlMem => { s with host.memEn := value && s.host.memCap }
    | .msixMask =>
      let s := { s with host.functionMask := value }
      if s.dormant then s else s.sendPending
    | .bar b addr => { s with host := s.host.setBar b addr }
    | .aspmL1 => { s with host.aspmL1 := value }
    | .aerSeverity w => { s with host.errors.aerSeverity := w }
    | .aerClear u c =>
      let e := s.host.errors
      { s with host.errors := { e with aerStatus := e.aerStatus &&& ~~~u, aerCorrectable := e.aerCorrectable &&& ~~~c } }

/-- MSIX_UNMASK: the mask of one vector, or of the function, is cleared (R284). -/
def State.msixUnmask (s : State) (vector : Option Nat) : State :=
  let s := match vector with
    | some v =>
      let e := tget s.host.msix v {}
      { s with host.msix := tset {} s.host.msix v { e with masked := false } }
    | none => { s with host.functionMask := false }
  s.sendPending

def execMsixUnmask (t : Nat) (vector : Option (Fin 2048)) (s : State) : Result :=
  s.runBy .host t fun s => s.msixUnmask (vector.map Fin.val)

def State.decoder (s : State) (d : Nat) : HdmDecoder := tget s.host.decoders d {}
def State.setDecoder (s : State) (d : Nat) (e : HdmDecoder) : State :=
  { s with host.decoders := tset {} s.host.decoders d e }

/-- A decoder committed as it is programmed: the programming of Table 10.8 decodes, any other reports Error Not Committed. -/
def HdmDecoder.commit (e : HdmDecoder) (d : Nat) : HdmDecoder :=
  let want := if d = 0 then 12 * 2 ^ 30 else 2 ^ 28
  let ok := e.size == want && e.skip == 0 && e.ways == 1
  { e with committed := ok, errorNotCommitted := !ok, locked := ok && e.lockOnCommit }

/-- HDM_DECODER_COMMIT: the decoder is programmed and committed, unless Lock On Commit holds it (R271). -/
def execHdmDecoderCommit (t : Nat) (d : Fin 2) (base size skip : Nat) (ways : Nat) (lock : Bool) (s : State) : Result :=
  s.run t fun s =>
    if s.host.proto == .down || (s.decoder d).locked then s else
    s.setDecoder d (({ base, size, skip, ways, lockOnCommit := lock } : HdmDecoder).commit d)

/-! ### Ring registers (10 R273 to R276) -/

def Ring.idle (g : Ring) : Bool := g.state == .stopped || g.state == .error

/-- A ring write or command discarded under R274. -/
def State.ringRefused (s : State) (r : Nat) : State := s.ringEvent r 4

/-- RING_CFG of Table 10.10. -/
def Ring.cfg (g : Ring) : Nat := g.coalCount.toNat * 2 ^ 16 + g.coalTime.toNat * 2 ^ 8 + g.sizeLog2.toNat

/-- The writable fields of a ring's base and configuration registers. -/
def Ring.write (g : Ring) (reg : RingReg) (v : Nat) : Ring :=
  match reg with
  | .baseLo => { g with baseLo := BitVec.ofNat 20 (v / 4096) }
  | .baseHi => { g with baseHi := BitVec.ofNat 32 v }
  | .cfg => { g with
      coalCount := BitVec.ofNat 8 (bits v 16 8), coalTime := BitVec.ofNat 8 (bits v 8 8)
      sizeLog2 := if 6 ≤ bits v 0 4 then BitVec.ofNat 4 (bits v 0 4) else g.sizeLog2 }

def State.ringConfig (s : State) (r : Nat) (reg : RingReg) (v : Nat) : State :=
  let g := s.ring r
  if g.idle then s.setRing r (g.write reg v) else s.ringRefused r

/-- RING_CONFIG_WRITE: accepted only while STOPPED or ERROR (R274). -/
def execRingConfigWrite (t : Nat) (m : Master) (r : Fin 36) (reg : RingReg) (value : BitVec 32) (s : State) : Result :=
  s.runBy m t fun s => s.ringConfig r reg value.toNat

def isLog (r : Nat) : Bool := decide (32 ≤ r)
def isRx (r : Nat) : Bool := decide (16 ≤ r) && !isLog r

/-- The 32-byte entries that a run of bytes holds. -/
def entriesOf (bs : List Byte) : List (List Byte) := (List.range (bs.length / 32)).map fun i => Machine.slice bs (32 * i) 32

def State.ringStart (s : State) (r : Nat) : State :=
  let g := s.ring r
  let bad := g.base == 0 || if isLog r then g.hostIdx != 0 else decide (g.entries < g.hostIdx.toNat)
  if !g.idle || bad then s.ringRefused r
  else
    let n := g.hostIdx.toNat
    let held := g.rxPosted.drop (g.rxPosted.length - n)
    -- entries 0 to RING_HOST stand posted in host memory; those the device no longer holds are read again
    let (again, s) := if isRx r then s.freeBytes (32 * (n - held.length)) else ([], s)
    (s.setRing r { g with
      state := .running, dev := 0, fetched := [], failed := false
      rxPosted := if isRx r then entriesOf again ++ held else [] }).rxRetry r

/-- RING_START (R274): the ring serves what stands posted between RING_DEV, now 0, and RING_HOST; the contents of entries that
the model no longer holds are free (log entry 8). -/
def execRingStart (t : Nat) (m : Master) (r : Fin 36) (s : State) : Result := s.runBy m t fun s => s.ringStart r

def State.ringStop (s : State) (r : Nat) : State :=
  let g := s.ring r
  match g.state with
  | .running => (s.setRing r { g with state := .stopping }).rxRetry r
  | .stopping => s.ringRefused r
  | _ => s

/-- RING_STOP (R274). A class that waited for the ring's buffers drops its copy. -/
def execRingStop (t : Nat) (m : Master) (r : Fin 36) (s : State) : Result := s.runBy m t fun s => s.ringStop r

/-- RING_STOPPED: a STOPPING ring reaches STOPPED. -/
def execRingStopped (t : Nat) (r : Fin 36) (s : State) : Result :=
  s.run t fun s =>
    let g := s.ring r
    if g.state == .stopping then
      (s.setRing r { g with state := .stopped, reason := 0, fetched := [], failed := false }).ringEvent r 2
    else s

/-- Is a RING_HOST write discarded (R275)? -/
def Ring.badIndex (g : Ring) (log : Bool) (v : BitVec 16) : Bool :=
  if log then decide (g.entries < (g.dev - v).toNat)
  else decide (g.entries < (v - g.dev).toNat) || decide (g.entries < (v - g.hostIdx).toNat)

/-- A RING_HOST write: entries posted, with the descriptors the host wrote for an RX ring, or records consumed. -/
def State.doorbell (s : State) (r : Nat) (v : BitVec 16) (posted : List Byte) : State :=
  let g := s.ring r
  if g.badIndex (isLog r) v then s.ringEvent r 8
  else
    let n := (v - g.hostIdx).toNat
    let new := (List.range n).map fun i => Machine.slice posted (32 * i) 32
    let s := s.setRing r { g with hostIdx := v, rxPosted := if isRx r then g.rxPosted ++ new else g.rxPosted }
    if isRx r then s.rxRetry r else s

/-- RING_DOORBELL (R275). -/
def execRingDoorbell (t : Nat) (m : Master) (r : Fin 36) (value : BitVec 16) (posted : List Byte) (s : State) : Result :=
  s.runBy m t fun s => s.doorbell r value posted

/-- RING_COALESCE_TIMEOUT: COAL_TIME from the first unreported completion (Table 10.10). -/
def execRingCoalesceTimeout (t : Nat) (r : Fin 36) (s : State) : Result :=
  s.run t fun s =>
    let g := s.ring r
    match g.coalEnd with
    | some e =>
      if e ≤ s.now then (s.setRing r { g with unreported := 0, coalEnd := none }).ringEvent r 1 else s
    | none => s

/-! ### TX rings (10 R277, R278) -/

/-- A descriptor as fetched (Table 10.11). Its reserved fields are those the host writes: FLAGS [7:4], bytes 11 to 23, and
byte 31 but for DONE; bytes 24 to 30 are the device's (log entry 81). -/
def txDescOf (d : List Byte) : TxDesc :=
  let raw := Machine.slice d 0 32
  { addr := leAt raw 0 8, len := leAt raw 8 2, flags := byteAt raw 10, raw
    clean := decide (byteAt raw 10 < 16) && ((raw.drop 11).take 13).all (· == 0) && byteAt raw 31 % 128 == 0 }

/-- A ring whose fetch has failed is in ERROR once the frames fetched before it are completed (R278). -/
def State.ringFail (s : State) (r : Nat) : State :=
  let g := s.ring r
  if g.failed && g.fetched.isEmpty then
    (s.setRing r { g with state := .error, reason := 3, failed := false }).ringEvent r 2
  else s

/-- TX_DESCRIPTOR_FETCH: the next descriptor posted, at most 16 ahead, is fetched, or the fetch fails. -/
def execTxDescriptorFetch (t : Nat) (r : Fin 16) (ok : Bool) (desc : List Byte) (s : State) : Result :=
  s.run t fun s =>
    let g := s.ring r
    let n := g.fetched.length
    if !(g.state == .running) || !s.hostUp || g.failed || 16 ≤ n || g.dev + BitVec.ofNat 16 n = g.hostIdx then s
    else if ok then s.setRing r { g with fetched := g.fetched ++ [txDescOf desc] }
    else (s.setRing r { g with failed := true }).ringFail r

/-- STATUS of a descriptor: bad length, buffer not read, reserved field (Table 10.11). -/
def State.txStatus (s : State) (d : TxDesc) (ok : Bool) : Nat :=
  if d.len < 14 ∨ s.num (0x2000 + hostPort) 4 - 4 < d.len then 1
  else if !d.clean then 3
  else if !ok then 2
  else 0

/-- The frame of a descriptor: padded to 60 bytes, with its FCS. -/
def txBytes (d : TxDesc) (buffer : List Byte) : List Byte :=
  let b := Machine.slice buffer 0 d.len
  withFcs (b ++ List.replicate (60 - b.length) 0) false

/-- Present a frame to slice 0 as received on P32; a device that takes no frame in discards it there (12 R316, 13 R340). -/
def State.present (s : State) (d : TxDesc) (buffer : List Byte) : State :=
  let bs := txBytes d buffer
  let v : Frame := {
    port := hostPort, bytePs := s.bytePs hostPort, startAt := s.now, limit := s.num (0x2000 + hostPort) 4
    bytes := bs, endAt := some s.now, slice := 0, tIn := s.ns0
    txClass := if bit d.flags 3 then some (d.flags % 8) else none }
  let s := (s.countW (Num.rxFrames hostPort)).countW (Num.rxBytes hostPort) bs.length
  match s.intakeClosed with
  | some n => s.count (n hostPort)
  | none => (s.newFrame v).wake 0 wakeHost

/-- The next ring in turn that holds a fetched descriptor. -/
def State.txTurn (s : State) : Option Nat :=
  ((List.range 16).map fun i => (s.host.nextTx + i) % 16).find? fun r => !(s.ring r).fetched.isEmpty

/-- TX_FRAME_INTAKE: the ring in turn gives one frame, at the pace of R12; its descriptor is completed once the buffer has
been read. In standby the frame arrives on P32 and is discarded there (12 R316). -/
def execTxFrameIntake (t : Nat) (r : Fin 16) (ok : Bool) (buffer : List Byte) (s : State) : Result :=
  s.run t fun s =>
    let g := s.ring r
    match g.fetched with
    | [] => s
    | d :: rest =>
      if s.txTurn ≠ some r.val ∨ !s.hostUp ∨ s.ringsHeld ∨ g.idle ∨ s.now < s.host.intakeFrom then s else
      let st := s.txStatus d ok
      let busy := if st = 0 then hostPace (max 60 d.len + 4) else 0
      let s := { s with host := { s.host with nextTx := (r.val + 1) % 16, intakeFrom := s.now + busy } }
      let s := if st = 0 then
          ((s.countW (Num.ringFramesIn r)).countW (Num.ringBytesIn r) d.len).present d buffer
        else s.count (Num.descRefused r (st - 1))
      let entry := d.raw.take 24 ++ [byte st] ++ leBytes 6 0 ++ [0x80]
      let s := s.emit (.dma (g.addr g.dev.toNat) entry)
      let s := s.setRing r { s.ring r with dev := g.dev + 1, fetched := rest }
      (s.complete r).ringFail r

/-- RX_WAIT_LIMIT: a copy that waits for buffers has waited for the RX wait limit, and is dropped (R279). -/
def execRxWaitLimit (t : Nat) (c : Fin 8) (s : State) : Result :=
  s.run t fun s =>
    match tfind s.host.rxWait c with
    | some e =>
      if s.now < e.stop then s else
      match s.rxWaiting c with
      | some (id, k, _) => ((s.endWait c).count (Num.ringFullDrops (k.ring - 16))).dropCopy id k 9
      | none => s.endWait c
    | none => s

end Sys2Proof.Machine
end

