-- ==== Sys2Proof/Machine/Images.lean ====
section
/-! DEFINITION. Images and directories of the boot flash, fuses, the identity key and attestation (15 R389 to R406). -/
namespace Sys2Proof.Machine

/-! ### Directories and images (15 R391 to R393) -/

def setBytes : Nat := 16 * 2 ^ 20

/-- One entry of a directory. -/
structure DirEntry where
  ty : Nat
  off : Nat
  len : Nat
  deriving DecidableEq, Repr

def dirGeneration (d : List Byte) : Nat := leAt d 4 4

def dirEntries (d : List Byte) : List DirEntry :=
  (List.range (byteAt d 8)).map fun k =>
    let i := 16 + 16 * k
    { ty := byteAt d i, off := leAt d (i + 4) 4, len := leAt d (i + 8) 4 }

def asciiOf (a b c d : Nat) : List Byte := [byte a, byte b, byte c, byte d]

/-- Is the directory of a set valid (R391)? -/
def dirValid (d : List Byte) : Bool :=
  let es := dirEntries d
  Machine.slice d 0 4 == asciiOf 0x47 0x4C 0x44 0x52
    && decide (1 ≤ byteAt d 8) && decide (byteAt d 8 ≤ 8)
    && leAt d 4092 4 == crc32c (Machine.slice d 0 4092)
    && decide (es.map DirEntry.ty).Nodup
    && es.all fun e => decide (e.off + e.len ≤ setBytes)

/-- The image of a type in a set; none: absent. -/
def setImage (d : List Byte) (ty : Nat) : Option (List Byte) :=
  ((dirEntries d).find? fun e => e.ty == ty).map fun e => Machine.slice d e.off e.len

/-- The preferred set: the valid one with the higher GENERATION, A of equals (R391); 0 is A, 1 is B. -/
def Nv.preferred (v : Nv) : Option Nat :=
  match dirValid v.flashA, dirValid v.flashB with
  | true, true => some (if dirGeneration v.flashA < dirGeneration v.flashB then 1 else 0)
  | true, false => some 0
  | false, true => some 1
  | false, false => none

/-- The bytes of a set. -/
def Nv.flashSet (v : Nv) (n : Nat) : List Byte := if n = 0 then v.flashA else v.flashB

/-- A set is programmed, or erased (R398). -/
def Nv.program (v : Nv) (n : Nat) (d : List Byte) : Nv := if n = 0 then { v with flashA := d } else { v with flashB := d }
def Nv.erase (v : Nv) (n : Nat) : Nv := v.program n []

/-- The set that the current boot does not use. -/
def Boot.otherSet (b : Boot) : Nat := 1 - b.flashSet.getD 1

def pad4 (n : Nat) : Nat := (n + 3) / 4 * 4

def imgHeader (m : List Byte) : List Byte := Machine.slice m 0 64
def imgType (m : List Byte) : Nat := byteAt m 6
def imgVersion (m : List Byte) : Nat := leAt m 8 4
def imgSecver (m : List Byte) : Nat := byteAt m 12
def imgPayloadLen (m : List Byte) : Nat := leAt m 16 4
def imgPayload (m : List Byte) : List Byte := Machine.slice m 64 (imgPayloadLen m)

/-- A signature block (R392). -/
structure SigBlock where
  signer : Nat
  key : List Byte
  sig : List Byte
  deriving DecidableEq, Repr

/-- The signature blocks in the bytes given. -/
def sigBlocks : Nat → List Byte → List SigBlock
  | 0, _ => []
  | n + 1, bs =>
    if bs.length < 68 then []
    else
      let len := leAt bs 4 4
      { signer := leAt bs 0 2, key := Machine.slice bs 8 60, sig := Machine.slice bs 68 len }
        :: sigBlocks n (bs.drop (pad4 (68 + len)))

def imgSigs (m : List Byte) : List SigBlock :=
  sigBlocks 8192 (Machine.slice m (64 + pad4 (imgPayloadLen m)) (leAt m 24 4))

/-- The payload limit of a type (Table 15.4); none: no such type. -/
def imgLimit (ty : Nat) : Option Nat :=
  match ty with
  | 0x01 => some (128 * 1024)
  | 0x02 => some (6 * 2 ^ 20)
  | 0x03 => some (2 ^ 20)
  | 0x04 => some (4 * 2 ^ 20)
  | 0x10 => some (2 * 2 ^ 20)
  | 0x20 => some 2097152
  | _ => none

/-- Place of a type in 0xD000.07 and 0xD000.08. -/
def imgPlace (ty : Nat) : Nat :=
  match ty with
  | 0x01 => 0 | 0x02 => 1 | 0x03 => 2 | 0x04 => 3 | 0x20 => 4 | _ => 5

/-- The signers a type needs (Table 15.4), by code and hash; none: refused whatever it carries, as where the owner's key is
needed and an aborted programming has left the owner slot unusable (R390). -/
def Nv.signers (v : Nv) (ty : Nat) : Option (List (Nat × List Byte)) :=
  let owner : Option (List (Nat × List Byte)) := if v.ownerBad then none else some [(2, v.ownerHash)]
  if ty = 0x10 then (if v.ownerSet then owner else some [])
  else if ty = 0x20 then (if v.ownerSet then owner else none)
  else if v.coSign then owner.map fun l => (1, Config.rootHash) :: l
  else some [(1, Config.rootHash)]

/-- Are the parameters of a tree, at `i`, LMS_SHA256_M32_H20 with LMOTS_SHA256_N32_W4 (R393; codes of RFC 8554)? -/
def treeFits (b : List Byte) (i : Nat) : Bool := beAt b i 4 == 8 && beAt b (i + 4) 4 == 3

/-- Does the signer's block stand among those of the image: the key's hash, L of 1 or 2, the parameters of each tree, and the
signature over the header? At L = 2 the lower tree's key follows the 2,832 bytes of its signature. -/
def imgSigned (m : List Byte) (signer : Nat × List Byte) : Bool :=
  (imgSigs m).any fun b =>
    b.signer == signer.1 && Config.sha256 b.key == signer.2 && treeFits b.key 4
      && (beAt b.key 0 4 == 1 || (beAt b.key 0 4 == 2 && treeFits b.sig 2832))
      && Config.hssVerify b.key (imgHeader m) b.sig

/-- The stepping letter of 0x1002.00. -/
def State.stepping (s : State) : Nat := bits (s.num 0x1002 0) 8 8

/-- The state of an image of type `ty` after the checks of R393, as 0xD000.07 shows it: 1 verified, else the check that
fails first. -/
def State.imageState (s : State) (ty : Nat) (m : List Byte) : Nat :=
  let magic := Machine.slice m 0 4 == asciiOf 0x47 0x4C 0x46 0x57 && leAt m 4 2 == 1 && byteAt m 7 == 0
    && leAt m 28 4 == 0 && imgType m == ty
  let sv := if ty < 0x10 then s.nv.galelekSv else s.nv.ownerSv
  if !magic then 2
  else if leAt m 14 2 ≠ 0x3216 ∨ byteAt m 13 ≠ s.stepping then 3
  else if (imgLimit ty).all fun n => decide (n < imgPayloadLen m) then 4
  else if Config.sha256 (imgPayload m) ≠ Machine.slice m 32 32 then 5
  else if imgSecver m < sv then 6
  -- of a decommissioned device, from its reset on, no image verifies (R393, R401)
  else match if s.boot.retired then none else s.nv.signers ty with
    | some l => if l.all (imgSigned m) then 1 else 7
    | none => 7

/-- Set the state of the image at a place, counting a refusal by its check (Table 15.9). -/
def State.noteImage (s : State) (place st : Nat) : State :=
  let s := { s with boot.states := splice s.boot.states place [byte st] }
  if 2 ≤ st then s.count (Num.imagesRefused (st - 2)) else s

/-- SHA-256 of the header and payload of an image (Table 15.7). -/
def imgDigest (m : List Byte) : List Byte := Config.sha256 (imgHeader m ++ imgPayload m)

/-! ### Fuses (15 R389, R390, R399 to R401) -/

def State.identityEvent (s : State) (flag : Nat) : State := s.raise 0x1BB (2 ^ flag) (capture [(2, s.nv.leaf)])
def State.bootEvent (s : State) (flags : Nat) : State := s.raise 0x1BA flags (capture [(2, s.boot.reason.toNat)])

/-- Blow the next fuse of a field of `size` fuses from `base`, `pos` of which are consumed: fuses that failed the read-back,
and the fuses consumed once one has been blown. -/
def blowNext (base size pos : Nat) : Nat × Option Nat :=
  match firstFrom pos (size - pos) fun i => !Config.fuseWeak (base + i) with
  | some i => (i - pos, some (i + 1))
  | none => (size - pos, none)

/-- Read-back failures are counted, and raise the identity event. -/
def State.fuseFailures (s : State) (n : Nat) : State :=
  if n = 0 then s else (s.count Num.fuseFailures n).identityEvent 2

/-- How many fuses of a list, now blown, fail the read-back. Of a field with ECC they are corrected (R389, R390). -/
def weakFuses (l : List Nat) : Nat := (l.filter Config.fuseWeak).length

/-- The fuses of a hash from `base` that it blows. -/
def hashFuses (base : Nat) (hash : List Byte) : List Nat := (below 256 fun i => bit (byteAt hash (i / 8)) (i % 8)).map (base + ·)

/-- Blow one LEAF fuse; false: the field is full (R402). -/
def State.blowLeaf (s : State) : Bool × State :=
  let (bad, pos) := blowNext 2048 1024 s.nv.leaf
  match pos with
  | some p => (true, { s with nv.leaf := p }.fuseFailures bad)
  | none => (false, { s with nv.leaf := 1024 }.fuseFailures bad)

/-- Blow fuses of a thermometer until `k` more read blown: fuses consumed, blown and failed. -/
def blowMany (base : Nat) : Nat → Nat → Nat × Nat × Nat
  | 0, pos => (pos, 0, 0)
  | k + 1, pos =>
    match blowNext base 64 pos with
    | (bad, some p) =>
      let (q, n, b) := blowMany base k p
      (q, n + 1, b + bad)
    | (bad, none) => (64, 0, bad)

/-- Blow a security version up to `v` (R399). -/
def State.advanceVersion (s : State) (owner : Bool) (v : Nat) : State :=
  if owner then
    let (p, n, bad) := blowMany 712 (v - s.nv.ownerSv) s.nv.ownerAt
    { s with nv := { s.nv with ownerSv := s.nv.ownerSv + n, ownerAt := p } }.fuseFailures bad
  else
    let (p, n, bad) := blowMany 648 (v - s.nv.galelekSv) s.nv.galelekAt
    { s with nv := { s.nv with galelekSv := s.nv.galelekSv + n, galelekAt := p } }.fuseFailures bad

/-! ### The identity key and attestation (15 R402 to R406) -/

def lowerLeaves : Nat := 32768
def daySeconds : Nat := 86400

def identityCode : Identity → Nat
  | .generating => 0 | .ready => 1 | .deferred => 2 | .exhausted => 3 | .unavailable => 4

/-- 0xD200.04. -/
def State.leavesLeft (s : State) : Nat :=
  match s.ao.identity with
  | .ready => lowerLeaves - s.ao.lowerLeaf
  | _ => 0

/-- The domain state 0xB000.05 (13 Table 13.1). -/
def State.domainState (s : State) : Nat :=
  match s.domainRole with
  | 0 => 0
  | 1 => if s.ao.node = 0xFE then 1 else if s.dom.member then 3 else 2
  | _ => 3

def roleCode : Role → Nat
  | .detached => 0 | .active => 1 | .standby => 2 | .fenced => 3 | .held => 4
def syncCode : Sync → Nat
  | .none => 0 | .clearing => 1 | .bulk => 2 | .inSync => 3 | .needed => 4

/-- 0xD000.08: the digests of the images running, 192 bytes. -/
def Boot.digestBytes (b : Boot) : List Byte :=
  ((List.range 6).map fun i => Machine.slice (tget b.digests i []) 0 32).flatten

/-- LIFECYCLE as a report shows it. -/
def Nv.lifeWord (v : Nv) : Nat := v.lifecycle.toNat + flagIf v.ownerSet 4 + flagIf v.coSign 5

/-- Bytes 0 to 335 of a report (Table 15.7). -/
def State.reportHead (s : State) (anchor : Bool) (nonce : List Byte) (result : Nat) : List Byte :=
  let p := ptimeOfNs s.ns0
  asciiOf 0x47 0x41 0x54 0x52 ++ beBytes 2 1 ++ beBytes 2 result
    ++ beBytes 4 (s.num 0x1000 0) ++ beBytes 2 (s.num 0x1001 0) ++ beBytes 2 (s.num 0x1002 0) ++ beBytes 4 (s.num 0x1003 0)
    ++ Machine.slice Config.serial 0 8 ++ Machine.slice Config.identityHash 0 32 ++ Machine.slice nonce 0 32
    ++ beBytes 2 (if anchor then 3 else 1) ++ beBytes 2 0
    ++ beBytes 2 (s.nv.leaf - 1) ++ beBytes 2 (1024 - s.nv.leaf)
    ++ beBytes 4 (if result = 0 then s.ao.lowerLeaf else 0xFFFFFFFF)
    ++ beBytes 2 s.nv.lifeWord ++ [byte s.nv.galelekSv, byte s.nv.ownerSv]
    ++ beBytes 2 s.ao.warmResets.toNat ++ beBytes 2 s.boot.set.toNat
    ++ beBytes 6 p.sec ++ beBytes 4 p.ns ++ leBytes 6 0 ++ s.boot.digestBytes
    ++ [byte s.domainRole, byte s.node, byte s.domainState, byte (if s.pairingOn then roleCode s.pair.role else 0)]
    ++ beBytes 4 s.pair.epoch.toNat ++ beBytes 4 s.dom.anchorEpoch.toNat ++ leBytes 4 0

/-- A report: signed when its RESULT is 0. -/
def State.reportOf (s : State) (anchor : Bool) (nonce : List Byte) (result : Nat) : List Byte :=
  let h := s.reportHead anchor nonce result
  if result = 0 then
    h ++ Machine.slice (Config.hssSign ((s.nv.leaf - 1) * lowerLeaves + s.ao.lowerLeaf) h) 0 5236
  else h

def State.reportSlot (s : State) (anchor : Bool) : ReportSlot := if anchor then s.boot.anchorSlot else s.boot.hostSlot
def State.setReportSlot (s : State) (anchor : Bool) (r : ReportSlot) : State :=
  if anchor then { s with boot.anchorSlot := r } else { s with boot.hostSlot := r }

/-- 0xD200.02 and .03. -/
def ReportSlot.code (r : ReportSlot) : Nat :=
  if r.generating.isSome then 2 else if r.queued.isSome then 1 else if r.report.isEmpty then 0 else 3

/-- The last lower leaf is taken by a report of the other slot that is being signed: no lower leaf is used twice (R403). -/
def State.lastLeafTaken (s : State) (anchor : Bool) : Bool :=
  match (s.reportSlot (!anchor)).generating with
  | some (_, 0) => decide (lowerLeaves ≤ s.ao.lowerLeaf + 1)
  | _ => false

/-- The RESULT of a request as the identity state at its instant gives it; 0: a signature, when there is a token (R405). -/
def State.resultNow (s : State) : Nat :=
  match s.ao.identity with
  | .generating | .ready => 0
  | .deferred => 3
  | .exhausted | .unavailable => 2

/-- A queued request starts once boot is complete; a report that is to be signed waits until the identity is ready, and has
RESULT 2 once it can never be (R404, R405; log entry 97). -/
def State.startReport (s : State) (anchor : Bool) : State :=
  let r := s.reportSlot anchor
  match r.queued, r.generating with
  | some (nonce, made), none =>
    let go (result : Nat) (s : State) := s.setReportSlot anchor { r with queued := none, generating := some (nonce, result) }
    if !(s.boot.state == .complete) then s
    else if made ≠ 0 then go made s
    else match s.ao.identity with
      | .generating | .deferred => s
      | .ready =>
        if s.lastLeafTaken anchor then s
        else if s.boot.tokens = 0 then go 1 s
        else go 0 { s with boot.tokens := s.boot.tokens - 1 }
      | .exhausted | .unavailable => go 2 s
  | _, _ => s

def State.startReports (s : State) : State := (s.startReport false).startReport true

/-- A nonce requests a report for a slot; a later request replaces a queued one (R404). -/
def State.requestReport (s : State) (anchor : Bool) (nonce : List Byte) : State :=
  let r := s.reportSlot anchor
  (s.setReportSlot anchor { r with queued := some (nonce, s.resultNow) }).startReport anchor

/-- Certify a fresh lower tree under the next top leaf, which takes one LEAF fuse (R403). -/
def State.renew (s : State) : State :=
  let (ok, s) := s.blowLeaf
  if ok then
    { s with ao := { s.ao with identity := .generating, renewedAt := s.now } }.count Num.renewals
  else { s with ao.identity := .exhausted }.identityEvent 3

/-- Has the renewal deferral ended: 24 hours since the latest renewal or cold boot? -/
def State.renewalDue (s : State) : Bool := decide (s.ao.renewedAt + daySeconds * secNs * nsPs ≤ s.now)

/-- A signature has used a lower leaf; after the last one the tree is renewed, or its renewal deferred. -/
def State.useLeaf (s : State) : State :=
  let s := { s with ao.lowerLeaf := s.ao.lowerLeaf + 1 }
  if s.ao.lowerLeaf < lowerLeaves then s
  else if s.renewalDue then s.renew
  else { s with ao.identity := .deferred }.identityEvent 1

/-- REPORT_READY: the report being generated is stored in its slot (R404). -/
def execReportReady (t : Nat) (anchorSlot : Bool) (s : State) : Result :=
  s.runNv t fun s =>
    let r := s.reportSlot anchorSlot
    match r.generating with
    | none => s
    | some (nonce, result) =>
      let n := b1 anchorSlot
      let report := s.reportOf anchorSlot nonce result
      let s := s.setReportSlot anchorSlot { r with report, generating := none }
      let s := s.count (if result = 0 then Num.reportsSigned n else Num.reportsUnsigned n (result - 1))
      let s := s.identityEvent 4
      (if result = 0 then s.useLeaf else s).startReports

/-- ATTEST_TOKEN_REFILL: one token a second, 64 at most (R405). -/
def execAttestTokenRefill (t : Nat) (s : State) : Result :=
  s.runAny t fun s => { s with boot.tokens := min 64 (s.boot.tokens + 1) }.startReports

/-- LOWER_TREE_READY: after boot, the generation and signing of a lower tree completes (R402). Where a warm reset has cut a cold
boot before it blew its leaf there is no top leaf to sign with until the next cold boot (17 R436; log entry 97). -/
def execLowerTreeReady (t : Nat) (s : State) : Result :=
  s.runAo t fun s =>
    if s.boot.state == .complete && s.ao.identity == .generating && !s.ao.leafDue then
      ({ s with ao := { s.ao with identity := .ready, lowerLeaf := 0 } }.identityEvent 0).startReports
    else s

/-- LEAF_RENEWAL: the deferral ends and a fresh lower tree is certified (R403). -/
def execLeafRenewal (t : Nat) (s : State) : Result :=
  s.runNv t fun s => if s.ao.identity == .deferred && s.renewalDue then s.renew.startReports else s

end Sys2Proof.Machine
end

