-- ==== Sys2Proof/Machine/Processors.lean ====
section
/-! DEFINITION. Group control, watchdogs, REST and the save lists, and refused accesses (11 R290 to R300). -/
namespace Sys2Proof.Machine

/-! ### Groups (11 R290, R293, R295) -/

/-- The image type of a group's firmware. -/
def groupImage (g : Nat) : Nat := g + 2

/-- The owner program is verified before the Judges' cores are released (R295): 2 running, 3 refused, 4 no owner key. -/
def State.ownerProgram (s : State) : State :=
  match tfind s.dict.vals (entryKey 0x9200 1) with
  | none => { s with proc.program := 0 }
  | some m =>
    let st := s.imageState 0x20 m
    let s := s.noteImage 4 st
    let code := if st = 1 then 2 else if !s.nv.ownerSet then 4 else 3
    let s := if st = 1 then
        { s with boot := { s.boot with
          digests := tput s.boot.digests 4 (imgDigest m), secvers := tput s.boot.secvers 4 (imgSecver m) } }
      else { s with boot := { s.boot with digests := tdel s.boot.digests 4, secvers := tdel s.boot.secvers 4 } }
    let s := { s with proc.program := code }
    if code = 2 then s else s.groupEvent 2 3

/-- The cores of a group execute, and its watchdog starts. -/
def State.release (s : State) (g : Nat) : State :=
  let s := if g = judgesGroup then s.ownerProgram else s
  let period := s.num (0x9100 + g) 3
  let s := s.toGroupState g .running
  let s := (groupCores g).foldl (fun (s : State) n => s.setCore n { s.core n with
    mode := .executing, cached := true, runsAt := s.now }) s
  s.setGroup g { s.group g with period, deadline := if period = 0 then none else some (s.now + period * nsPs) }

/-- GROUP_CHECK_DONE: the check of a STARTING group's firmware ends (R290); a group whose image was not verified at boot has
no digest to match. -/
def execGroupCheckDone (t : Nat) (g : Fin 3) (ok : Bool) (s : State) : Result :=
  s.run t fun s =>
    if !((s.group g).state == .starting) || !s.locked (groupPll g) then s
    else if ok && (tfind s.boot.digests (imgPlace (groupImage g))).isSome then s.release g
    else (s.toGroupState g .stopped).groupEvent g 2

/-- WATCHDOG_EXPIRY: a period has passed without a restart (R293). -/
def execWatchdogExpiry (t : Nat) (g : Fin 3) (s : State) : Result :=
  s.run t fun s =>
    let p := s.group g
    match p.deadline with
    | some d =>
      if d ≤ s.now then
        (s.setGroup g { p with
          wdog := true, expiries := p.expiries + 1, deadline := some (d + p.period * nsPs) }).groupEvent g 0
      else s
    | none => s

/-- WATCHDOG_RESTART: firmware restarts its watchdog, with the period now in force. -/
def execWatchdogRestart (t : Nat) (g : Fin 3) (s : State) : Result :=
  s.run t fun s =>
    if !s.groupActs g then s else
    let period := s.num (0x9100 + g) 3
    s.setGroup g { s.group g with
      wdog := false, period, deadline := if period = 0 then none else some (s.now + period * nsPs) }

/-! ### REST (11 R298 to R300) -/

/-- Does the core execute REST now? -/
def State.executes (s : State) (core : CoreId) : Bool :=
  let c := s.core (coreNumber core)
  s.coresRun (coreGroup core) && c.mode == .executing && decide (c.runsAt ≤ s.now)

/-- A core enters a mode, unless an unmasked interrupt is pending; `kind` counts the entry, `target` stands in its register
(Tables 11.6, 11.16). -/
def State.restEntry (s : State) (core : CoreId) (mode : CoreMode) (kind target : Nat) (irq : Bool) : State :=
  let n := coreNumber core
  let s := s.setCore n { s.core n with rest := BitVec.ofNat 32 (target % 16 * 16 + kind) }
  if irq then s else (s.setCore n { s.core n with mode }).count (Num.restEntries n kind)

/-- REST_WAIT: MODE 0, clock gated. -/
def execRestWait (t : Nat) (core : CoreId) (irq : Bool) (s : State) : Result :=
  s.run t fun s => if s.executes core then s.restEntry core .wait 0 0 irq else s

/-- REST_SLEEP: MODE 1; the save list is written and the core's power removed (R299). -/
def execRestSleep (t : Nat) (core : CoreId) (irq : Bool) (s : State) : Result :=
  s.run t fun s =>
    if !s.executes core then s else
    let s := s.restEntry core .sleep 1 0 irq
    if irq then s else
    s.sleepCore (coreNumber core)

/-- One more refused access or request of a core's group (0x9100+g.05). -/
def State.coreFault (s : State) (g : Nat) : State :=
  s.setGroup g { s.group g with faults := (s.group g).faults + 1 }

/-- REST_DEVICE: MODE 2; Marshal core 0 requests a device state and waits, any other core only waits (R298). A reserved
TARGET names no state and requests none. -/
def execRestDevice (t : Nat) (core : CoreId) (irq : Bool) (target : Nat) (s : State) : Result :=
  s.run t fun s =>
    if !s.executes core then s else
    let s := s.restEntry core .wait 2 target irq
    if core = .marshal 0 then
      match devOf (target % 16) with
      | some d => s.powerRequest d
      | none => s
    else s.coreFault (coreGroup core)

/-- A word of a save slot is bad; which one is free (16 R424). -/
def State.slotEvent (s : State) (core : CoreId) (uncorrectable : Bool) : State :=
  let (n, s) := s.free
  let (base, size) := saveSlot core
  s.memEvent 5 uncorrectable false (capture [(4, base + n % (size / 8) * 8)])

/-- CORE_WAKE: an unmasked interrupt reaches a resting core; a save slot that cannot be read leaves the core held and its
group in FAULT (R300). -/
def execCoreWake (t : Nat) (core : CoreId) (ecc : Ecc) (s : State) : Result :=
  s.run t fun s =>
    let n := coreNumber core
    let g := coreGroup core
    let c := s.core n
    if !s.coresRun g then s else
    match c.mode with
    | .wait => s.resumeCore n
    | .sleep =>
      if ecc = .good then s.resumeCore n
      else if ecc = .corrected then (s.slotEvent core false).resumeCore n
      else
        let s := s.resumeCore n
        let s := (s.slotEvent core true).setCore n { c with mode := .held }
        (s.toGroupState g .fault).groupEvent g 1
    | _ => s

/-- Does Table 11.2 allow the access? -/
def coreMayAccess (core : CoreId) (addr : Nat) (wr : Bool) : Bool :=
  let within (base size : Nat) : Bool := decide (base ≤ addr) && decide (addr < base + size)
  let g := coreGroup core
  let mem := 0x8000000000
  within 0x10000000 0x2000000 || within 0x12000000 0x2000 || within 0x13000000 0x10000
    || (g != 0 && within 0 0x40000) || (g == 2 && within 0x1000000 0x400000)
    || (within mem 0x800000000 && (!wr
      || (g == 0 && decide (mem + 0x400000000 ≤ addr)) || (g == 2 && within (mem + 0x400000000) 0x100000000)))

/-- A word of a processor memory that ECC corrected or could not correct: memory 4 counts it and raises its event with the
group, the core in it and the address; on an uncorrectable word the core takes an exception (16 R424, Table 16.7). That such
an exception is not counted in 0x9100+g.05, which counts refused accesses, is log entry 60's reading. -/
def State.coreWord (s : State) (core : CoreId) (addr : Nat) (uncorrectable : Bool) : State :=
  let g := coreGroup core
  let s := s.memEvent 4 uncorrectable false (capture [(1, g), (1, coreNumber core - 4 * g), (8, addr)])
  if uncorrectable then s.emit (.coreException core addr) else s

/-- CORE_ACCESS_REFUSED: an access that Table 11.2 does not allow raises a core exception and is counted (R294); an allowed one
may meet a bad word. -/
def execCoreAccessRefused (t : Nat) (core : CoreId) (addr : Nat) (kind : CoreAccess) (s : State) : Result :=
  s.run t fun s =>
    match s.executes core, kind with
    | true, .barred wr =>
      if coreMayAccess core addr wr then s else (s.emit (.coreException core addr)).coreFault (coreGroup core)
    | true, .word uncorrectable => if coreMayAccess core addr false then s.coreWord core addr uncorrectable else s
    | false, _ => s

end Sys2Proof.Machine
end

