-- ==== Sys2Proof/Machine/Pairing.lean ====
section
/-! DEFINITION. Active and standby pairs: the Sallar link with its mirror records, leases, fencing, takeover and
resynchronisation (12). -/
namespace Sys2Proof.Machine

/-! ### Timers and events (12 R321, R337) -/

/-- The end of a timer of `n` µs started at `t`: whole microseconds, counted from the next tick (R321). -/
def timerEnd (t n : Nat) : Nat := (t + usPs - 1) / usPs * usPs + n * usPs

/-- Has a timer of `n` µs started at `t` run out? -/
def State.ran (s : State) (t n : Nat) : Bool := decide (timerEnd t n ≤ s.now)

/-- Has a timer of a dictionary entry in ns run out? It takes whole microseconds, as many as hold it (DEDUCED, log entry 62). -/
def State.ranNs (s : State) (t ns : Nat) : Bool := s.ran t ((ns + 999) / 1000)

/-- Is the instant `t` at most `n` µs past? -/
def State.recent (s : State) (t n : Nat) : Bool := decide (s.now ≤ timerEnd t n)

/-- Lease remaining, ns; 0 unless ACTIVE (Table 12.9). -/
def State.leaseLeft (s : State) : Nat :=
  match s.pair.leaseEnd with
  | some e => if s.pair.role == .active then (e - s.now) / nsPs else 0
  | none => 0

def State.roleEvent (s : State) (flag : Nat) : State := s.raise 0x1AE (2 ^ flag) (capture [(4, s.pair.epoch.toNat)])
def State.pairEvent (s : State) (flag : Nat) : State := s.raise 0x1AF (2 ^ flag) (capture [(4, s.pair.lastApplied.toNat)])
def State.leaseEvent (s : State) (flags : Nat) : State := s.raise 0x1B0 flags (capture [(8, s.leaseLeft)])
def State.laneEvent (s : State) (flag : Nat) : State := s.raise 0x1B1 (2 ^ flag) [byte s.pair.laneUp.toNat]

/-- Is a lane enabled (0xA000.03) while pairing is on, with its clock (14 R359)? The Sallar block is dark otherwise (R314). -/
def State.laneOn (s : State) (l : Nat) : Bool :=
  s.pairingOn && bit (s.num 0xA000 3) l && s.locked (.lane (Fin.ofNat 36 (32 + l)))

/-- Is one sequence number before another, modulo 2^32? -/
def seqBefore (a b : BitVec 32) : Bool := decide (2 ^ 31 ≤ (a - b).toNat)

/-! ### Frames of the link (12 R317, R320) -/

/-- The most bytes of records in one frame: 9,216 less header and FCS. -/
def sallarRoom : Nat := 9216 - 40

/-- Records in frames: consecutive records of one kind, as many as fit. -/
def packRecords : List MirrorRec → List (List MirrorRec)
  | [] => []
  | r :: l =>
    match packRecords l with
    | (q :: g) :: rest =>
      if q.bulk == r.bulk && (r :: q :: g).length ≤ 65535 && replayBytes (r :: q :: g) ≤ sallarRoom then
        (r :: q :: g) :: rest
      else [r] :: (q :: g) :: rest
    | rest => [r] :: rest

/-- Send records, frame by frame, on the lanes that carry the stream. -/
def State.sendRecords (s : State) (rs : List MirrorRec) : State :=
  (packRecords rs).foldl (fun (s : State) g =>
    match s.sallarLane with
    | some l => s.sallarSend l (if g.any MirrorRec.bulk then 2 else 1) g
    | none => s) s

/-- SALLAR_HEARTBEAT_SEND: a lane that has sent nothing for 20 µs sends a heartbeat frame (R317). -/
def execSallarHeartbeatSend (t : Nat) (lane : Fin 2) (s : State) : Result :=
  s.run t fun s =>
    let due := match tfind s.pair.laneTx lane with
      | some a => s.ran a 20
      | none => true
    if s.laneOn lane && due then s.sallarSend lane 3 [] else s

/-- The active has failed, as far as its standby can see, before the standby is IN_SYNC: no failover is possible (R333; log
entry 64). -/
def State.activeFailed (s : State) : State :=
  if s.pair.role == .standby && (s.pair.sync == .clearing || s.pair.sync == .bulk) then s.pairEvent 3 else s

/-- SALLAR_LANE_TIMEOUT: a lane without a good frame for 100 µs counts as down (R317). -/
def execSallarLaneTimeout (t : Nat) (lane : Fin 2) (s : State) : Result :=
  s.run t fun s =>
    let quiet := match tfind s.pair.laneRx lane with
      | some a => s.ran a 100
      | none => true
    if bit s.pair.laneUp.toNat lane && quiet then
      let s := { s with pair.laneUp := s.pair.laneUp &&& ~~~(1#2 <<< lane.val) }.laneEvent lane
      if s.pair.laneUp = 0 then s.activeFailed else s
    else s

/-- SALLAR_RESEND: no ACK has advanced for 50 µs while records are outstanding, and they are sent again (R320); a fenced
device goes on while its epoch is the newest it has seen (R325). -/
def execSallarResend (t : Nat) (s : State) : Result :=
  s.run t fun s =>
    let sends := s.pair.role == .active || s.pair.role == .held
      || (s.pair.role == .fenced && decide (s.pair.peerEpoch.toNat ≤ s.pair.epoch.toNat))
    if s.pairingOn && sends && !s.pair.replay.isEmpty && s.ran s.pair.ackAt 50 then
      ({ s with pair.ackAt := s.now }.count Num.resends).sendRecords s.pair.replay
    else s

/-! ### The periodic records (12 R319, Table 12.4) -/

/-- `l` in pieces of at most 255. -/
def pieces {α : Type} : Nat → List α → List (List α)
  | 0, _ => []
  | n + 1, l => if l.isEmpty then [] else l.take 255 :: pieces n (l.drop 255)

/-- GENERATORS records of the handles given, and NODE_SEQ records of the node-table positions given. -/
def State.mirrorGenerators (s : State) (hs : List Nat) : State :=
  (pieces 129 hs).foldl (fun (s : State) g =>
    let item (h : Nat) := beBytes 2 h ++ beBytes 2 (s.generator h).toNat
    s.mirror 7 (beBytes 2 g.length ++ [0, 0] ++ (g.map item).flatten)) s
def State.mirrorNodes (s : State) (is : List Nat) : State :=
  let ns := is.filterMap fun i => tfind s.red.nodes i
  (pieces 33 ns).foldl (fun (s : State) g =>
    let item (n : Node) := beBytes 6 n.mac ++ beBytes 2 n.txSeq.toNat
    s.mirror 8 (beBytes 2 g.length ++ [0, 0] ++ (g.map item).flatten)) s

/-- GENERATOR_MIRROR_BATCH: once per mirror interval, every handle and every node whose number changed since the latest
batch (R319). -/
def execGeneratorMirrorBatch (t : Nat) (s : State) : Result :=
  s.run t fun s =>
    if s.mirrors && s.ranNs s.pair.batchAt (s.num 0xA000 5) then
      let hs := if s.pair.genAll then List.range 32768 else s.pair.genDirty
      let ns := s.pair.nodeDirty
      let s := { s with pair := { s.pair with batchAt := s.now, genDirty := [], genAll := false, nodeDirty := [] } }
      (s.mirrorGenerators hs).mirrorNodes ns
    else s

/-- The next live tail of the digest pass. -/
def State.nextDigest (s : State) (from_ : Nat) : Option Nat :=
  (s.flow.backmap.find? fun e => decide (from_ ≤ e.1) && (backSlot e.2).isSome).map Prod.fst

def State.emitDigest (s : State) (t : Nat) : State :=
  { s with pair.digestPos := t + 1 }.mirror 9 (beBytes 4 t ++ tailImage (s.tailVal t))

/-- DIGEST_EMIT: the digest pass emits the record of the next live tail; a new pass begins once per digest period (R319).
-/
def execDigestEmit (t : Nat) (s : State) : Result :=
  s.run t fun s =>
    if !s.mirrors then s else
    match s.nextDigest s.pair.digestPos with
    | some x => s.emitDigest x
    | none =>
      if s.ranNs s.pair.digestAt (s.num 0xA000 6) then
        let s := { s with pair := { s.pair with digestAt := s.now, digestPos := 0 } }
        match s.nextDigest 0 with
        | some x => s.emitDigest x
        | none => s
      else s

/-! ### The bulk copy (12 R332) -/

/-- One record of a bulk copy, in the replay queue; it is sent with the rest of the copy. -/
def State.bulkRecord (s : State) (ty : Nat) (body : List Byte) : State :=
  let r : MirrorRec := { seq := s.pair.nextSeq, ty, body, bulk := true }
  let q := s.pair.replay ++ [r]
  let q' := fitReplay (replayBytes q) q
  { s with pair := { s.pair with
    replay := q', nextSeq := s.pair.nextSeq + 1
    loss := s.pair.loss || q'.length < q.length
    lost := s.pair.lost || (!s.pair.loss && q'.length < q.length)
    ackAt := if s.pair.replay.isEmpty then s.now else s.pair.ackAt } }.count (Num.recordsSent (ty - 1))

/-- FDB entries, in index order, and the slots excluded. -/
def State.bulkFdb (s : State) : State :=
  let s := s.fdb.entries.foldl (fun (s : State) e => s.bulkRecord 6 (beBytes 4 e.1 ++ [7, 0, 0, 0] ++ leBytes 16 e.2.toNat)) s
  s.fdb.excluded.foldl (fun (s : State) e => s.bulkRecord 6 (beBytes 4 e.1 ++ [9, 0, 0, 0] ++ leBytes 16 0)) s

/-- One NAT record (Table 12.3). -/
def natBody (b op k port : Nat) (v : BitVec 512) : List Byte :=
  beBytes 4 b ++ [byte op, byte k] ++ beBytes 2 port ++ beBytes 4 (Bd.inside v)
    ++ [byte (Bd.zone v), byte (Bd.pool v)] ++ beBytes 2 (Bd.slot v) ++ [byte (Bd.block v), 0, 0, 0]

/-- Bindings with their offsets in use. -/
def State.bulkBindings (s : State) : State :=
  s.flow.bindings.foldl (fun (s : State) e =>
    (below 256 (Bd.port e.2)).foldl (fun (s : State) k =>
      s.bulkRecord 5 (natBody e.1 2 k (tget s.flow.ports (e.1 * 256 + k) 0).toNat e.2))
      (s.bulkRecord 5 (natBody e.1 1 0 0 e.2))) s

/-- One run of the free list as FREE_RUN records of at most 1,024 indices. -/
def State.bulkRun (pos first : Nat) : Nat → State → State
  | 0, s => s
  | n + 1, s =>
    -- record number n of the run counts from its end
    let s := State.bulkRun pos first n s
    let k := 1024
    s.bulkRecord 12 (beBytes 4 (pos + n * k) ++ beBytes 2 k ++ [0, 0]
      ++ ((List.range k).map fun i => beBytes 4 (first + n * k + i)).flatten)

/-- The tail of a run that fills no whole record. -/
def State.bulkRest (s : State) (pos first n : Nat) : State :=
  if n = 0 then s else
    s.bulkRecord 12 (beBytes 4 pos ++ beBytes 2 n ++ [0, 0] ++ ((List.range n).map fun i => beBytes 4 (first + i)).flatten)

/-- The free list, run by run from its head. -/
def State.bulkFree (s : State) : State :=
  (s.flow.free.runs.foldl (fun (acc : Nat × State) r =>
    let whole := r.2 / 1024
    let s := State.bulkRun acc.1 r.1 whole acc.2
    (acc.1 + r.2, s.bulkRest (acc.1 + whole * 1024) (r.1 + whole * 1024) (r.2 % 1024))) (0, s)).2

/-- A live record, and the cursor past its tail. -/
def State.bulkFlow (s : State) (e : Nat × BitVec 32) : State :=
  match backSlot e.2 with
  | some x =>
    { s.bulkRecord 1 (beBytes 4 e.1 ++ leBytes 64 (s.headAt x).toNat ++ tailImage (s.tailVal e.1)) with
      pair.bulkCursor := BitVec.ofNat 32 (e.1 + 1) }
  | none => s

/-- The live records from the cursor on, in tail-index order, as many as the replay queue has room for: what is not yet
acknowledged of the copy stays in the queue, so the rest of it waits (R320). -/
def State.bulkFlows (s : State) : State :=
  let room := (replayLimit - replayBytes s.pair.replay) / 136
  let live := s.flow.backmap.filter fun e => decide (s.pair.bulkCursor.toNat ≤ e.1) && (backSlot e.2).isSome
  let s := (live.take room).foldl State.bulkFlow s
  if live.length ≤ room then { s with pair.bulkOn := false } else s

/-- Records of a copy made and sent in frames of KIND 0x02. -/
def State.bulkSend (s : State) (f : State → State) : State :=
  let first := s.pair.nextSeq
  let s := f s
  s.sendRecords (s.pair.replay.filter fun r => !seqBefore r.seq first)

/-- A bulk copy begins (R332): FDB entries, bindings, the free list, then live records. -/
def State.bulkCopy (s : State) : State :=
  { s with pair := { s.pair with bulkSent := true, bulkOn := true, bulkCursor := 0 } }.bulkSend fun s =>
    s.bulkFdb.bulkBindings.bulkFree.bulkFlows

/-! ### Applying records (12 R319, Table 12.3) -/

/-- Bindings made, with an offset taken, with an offset released, freed. -/
def State.applyNat (s : State) (b : List Byte) : Option State :=
  let n := beAt b 0 4
  let op := byteAt b 4
  let k := byteAt b 5
  let slot := beAt b 14 2
  let block := byteAt b 16
  let v := s.binding n
  if op = 1 && !Bd.valid v then
    let v : BitVec 512 := BitVec.ofNat 512 (1 + block * 2 ^ 184 + slot * 2 ^ 192 + byteAt b 13 * 2 ^ 208
      + byteAt b 12 * 2 ^ 216 + beAt b 8 4 * 2 ^ 224)
    let s := s.setBinding n v
    some { s with flow := { s.flow with
      blocks := tset 0 s.flow.blocks slot (tget s.flow.blocks slot 0 ||| BitVec.ofNat 256 (2 ^ block))
      owners := tset 0 s.flow.owners (ownerKey slot block) n } }
  else if op = 2 && Bd.valid v && !Bd.port v k then
    let v := setFld (setFld (setFld v (256 + k) 1 1) 176 8 k) 167 9 (Bd.used v + 1)
    let s := s.setBinding n v
    some { s with flow.ports := tset 0 s.flow.ports (n * 256 + k) (BitVec.ofNat 16 (beAt b 6 2)) }
  else if op = 3 && Bd.valid v && Bd.port v k then
    let s := s.setBinding n (setFld (setFld v (256 + k) 1 0) 167 9 (Bd.used v - 1))
    some { s with flow.ports := tdel s.flow.ports (n * 256 + k) }
  else if op = 4 && Bd.valid v then
    let sl := Bd.slot v
    let s := s.setBinding n 0
    some { s with flow := { s.flow with
      blocks := tset 0 s.flow.blocks sl (tget s.flow.blocks sl 0 &&& ~~~ (BitVec.ofNat 256 (2 ^ Bd.block v)))
      owners := tdel s.flow.owners (ownerKey sl (Bd.block v)) } }
  else none

/-- A slot for a placed head: a free candidate, or one that a chain of at most eight moves frees. -/
def State.slotFor (s : State) (k : FlowKey) : Option (Nat × State) :=
  let cand := s.candidates k
  match cand.find? s.slotFree with
  | some x => some (x, s)
  | none =>
    match s.search 8 (cand.map fun x => [x]) cand with
    | none => none
    | some p =>
      let s := (s.hops p).foldl (fun (s : State) (m : Hop) =>
        s.retireMove { key := m.key, src := m.src, dst := m.dst, copy := s.headAt m.src }) s
      (cand.find? s.slotFree).map fun x => (x, s)

/-- A record placed, its head as it came, but for ORIGIN 3 and for where it stands. -/
def State.applyPlace (s : State) (b : List Byte) : Option State :=
  let t := beAt b 0 4
  let h := linkHead (setFld (BitVec.ofNat 512 (leAt b 4 64)) 395 2 3)
  if t ≥ tailCount || (s.slotOfTail t).isSome then none else
  (s.slotFor (Hd.key h)).map fun (x, s) =>
    { s with pair.drawn := s.pair.drawn.erase t }.placeHead { key := Hd.key h, head := h, tail := t } x
      (cleanTail (BitVec.ofNat 512 (leAt b 68 64)))

/-- Head fields replaced: its place, tail index and VALID stay. -/
def State.applyHead (s : State) (b : List Byte) : Option State :=
  (s.slotOfTail (beAt b 0 4)).map fun x =>
    let old := s.headAt x
    s.setHead x (setFld (mergeBits Hd.rwMask old (linkHead (BitVec.ofNat 512 (leAt b 4 64)))) 395 2 3)

def State.onLiveTail (s : State) (t : Nat) (f : State → State) : Option State :=
  if (s.slotOfTail t).isSome then some (f s) else none

/-- An FDB record applied. The spec does not say whether it makes an FDB log record or marks a waiting shadow difference
changed; here it does neither (DESIGN CHOICE, log entry 84). -/
def State.applyFdb (s : State) (b : List Byte) : Option State :=
  let i := beAt b 0 4
  let e : FdbEntry := BitVec.ofNat 128 (leAt b 8 16)
  let k := byteAt b 4
  if i ≥ fdbEnd then none
  else if k = 1 || k = 2 || k = 7 then
    some { s with fdb := { s.fdb.put i e with excluded := tdel s.fdb.excluded i } }
  else if k = 5 || k = 6 || k = 8 then some { s with fdb := { s.fdb.put i 0 with excluded := tdel s.fdb.excluded i } }
  else if k = 9 then some { s with fdb := { s.fdb.put i 0 with excluded := tset false s.fdb.excluded i true } }
  else none

def State.applyGenerators (s : State) (b : List Byte) : State :=
  (List.range (beAt b 0 2)).foldl (fun (s : State) i =>
    s.setGenerator (beAt b (4 + 4 * i) 2 % 32768) (BitVec.ofNat 16 (beAt b (6 + 4 * i) 2))) s

def State.applyNodeSeq (b : List Byte) : Nat → Option State → Option State
  | 0, r => r
  | n + 1, r =>
    (State.applyNodeSeq b n r).bind fun s =>
      (s.nodeFor (beAt b (4 + 8 * n) 6)).map fun (i, x) =>
        s.setNode i (s.seenNow { x with proxied := true, txSeq := BitVec.ofNat 16 (beAt b (10 + 8 * n) 2) })

/-- A tail index drawn: it must be the head of the free list. -/
def State.applyDraw (s : State) (t : Nat) : Option State :=
  match Runs.pop s.flow.free.runs with
  | some (x, r) =>
    if x = t then some { s with
      flow := { s.flow with free := { s.flow.free with runs := r }, inUse := s.flow.inUse + 1 }
      pair.drawn := s.pair.drawn ++ [t] } else none
  | none => none

/-- A run of the free list, appended at its position. -/
def State.applyRun (s : State) (b : List Byte) : Option State :=
  if beAt b 0 4 = Runs.count s.flow.free.runs then
    let r := (List.range (beAt b 4 2)).foldl (fun r i => Runs.push r (beAt b (8 + 4 * i) 4)) s.flow.free.runs
    some { s with flow := { s.flow with free := { s.flow.free with runs := r } } }
  else none

/-- The body length a record type must have, at least. -/
def mirrorLength (ty : Nat) : Nat :=
  match ty with
  | 1 => 132 | 2 => 68 | 3 => 8 | 4 => 12 | 5 => 20 | 6 => 24 | 7 => 4 | 8 => 4 | 9 => 68 | 10 => 4 | 11 => 4 | _ => 8

/-- One record applied, or nothing where it cannot be. -/
def State.applyRecord (s : State) (ty : Nat) (b : List Byte) : Option State :=
  let t := beAt b 0 4
  if b.length < mirrorLength ty then none else
  match ty with
  | 1 => s.applyPlace b
  | 2 => s.applyHead b
  | 3 => s.onLiveTail t fun s => s.deleteTail t (byteAt b 4)
  | 4 => s.onLiveTail t fun s =>
      s.setTail t (setFld (setFld (s.tailVal t) 264 8 (byteAt b 4)) 232 32 (beAt b 8 4))
  | 5 => s.applyNat b
  | 6 => s.applyFdb b
  | 7 => some (s.applyGenerators b)
  | 8 => State.applyNodeSeq b (beAt b 0 2) (some s)
  | 9 => s.onLiveTail t fun s =>
      let old := s.tailVal t
      let new := cleanTail (BitVec.ofNat 512 (leAt b 4 64))
      s.setTail t (setFld (setFld new 272 72 (fld old 272 72)) 87 6 (fld old 87 6))
  | 10 => s.applyDraw t
  | 11 => some ({ s with pair.drawn := s.pair.drawn.erase t }.returnTail t)
  | 12 => s.applyRun b
  | _ => none

/-- A record that cannot be applied leaves the standby out of step (R319). -/
def State.needResync (s : State) : State := { s with pair.sync := .needed }.pairEvent 0

/-- The record expected is applied. -/
def State.applyNext (s : State) (r : MirrorRec) : State :=
  match s.applyRecord r.ty r.body with
  | some s => { s with pair := { s.pair with expected := s.pair.expected + 1, lastApplied := r.seq } }.count
      (Num.recordsApplied (r.ty - 1))
  | none => s.needResync

/-- The record expected before the bulk copy has begun (R332): a delta is counted off, since the copy carries what it
changed; the first record of the copy begins it, once the tables are clear. -/
def State.awaitCopy (s : State) (r : MirrorRec) : State :=
  if !r.bulk then { s with pair.expected := s.pair.expected + 1 }
  else if s.pair.sync == .bulk then { s with pair.adopt := false }.applyNext r
  else s

/-- One record of a frame: applied in order, a duplicate, or discarded (R319, R320). -/
def State.takeRecord (s : State) (r : MirrorRec) : State :=
  if !s.pair.follows then s
  else if seqBefore r.seq s.pair.expected then s.count Num.duplicateRecords
  else if r.seq ≠ s.pair.expected || !(s.pair.sync == .clearing || s.pair.sync == .bulk || s.pair.sync == .inSync) then s
  else if s.pair.adopt then s.awaitCopy r
  else s.applyNext r

/-- The records received and not yet applied. -/
def State.takeAccepted (s : State) : State :=
  s.pair.accepted.foldl State.takeRecord { s with pair.accepted := [] }

/-- The changes of the link are applied one at a time with the flow commands, in the order accepted (05 R137): behind a
command in progress, and while the clock of the memory controllers is gated (14 R359), they wait. -/
def State.drain (s : State) : State := if s.flow.busy || !s.locked .memory then s else s.takeAccepted
def State.offerRecord (s : State) (r : MirrorRec) : State := { s with pair.accepted := s.pair.accepted ++ [r] }.drain

/-- The records of a frame, `n` of them from number `q`. -/
def sallarRecords (bulk : Bool) : Nat → BitVec 32 → List Byte → List MirrorRec
  | 0, _, _ => []
  | n + 1, q, b =>
    let len := beAt b 2 2
    { seq := q, ty := byteAt b 0, body := (b.drop 4).take len, bulk }
      :: sallarRecords bulk n (q + 1) (b.drop (4 + (len + 3) / 4 * 4))

/-- What a frame of the active tells its standby of the sequence: how far it goes, and, to a standby that follows none yet and
has said so, which is the next (DESIGN CHOICE, log entry 63). -/
def State.peerSequence (s : State) (kind : Nat) (q : BitVec 32) (count : Nat) : State :=
  let end_ := q + BitVec.ofNat 32 count
  if !s.pair.follows then
    if kind = 2 || !s.pair.asked then s
    else { s with pair := { s.pair with follows := true, expected := q, peerNext := end_ } }
  else if seqBefore s.pair.peerNext end_ then { s with pair.peerNext := end_ } else s

/-! ### Taking in a frame of the link (12 R317, R319, R320, R332, R334) -/

/-- Is it a frame of Table 12.2 for this device? -/
def State.sallarGood (s : State) (b : List Byte) : Bool :=
  decide (36 ≤ b.length) && beAt b 12 2 == 0x88B6 && byteAt b 14 == 1
    && decide (1 ≤ byteAt b 15) && decide (byteAt b 15 ≤ 3) && byteAt b 17 == s.node

/-- A good frame: its lane is up. -/
def State.laneSeen (s : State) (l : Nat) : State :=
  let up := bit s.pair.laneUp.toNat l
  let s := { s with pair.laneRx := tput s.pair.laneRx l s.now }
  if up then s else ({ s with pair.laneUp := s.pair.laneUp ||| (1#2 <<< l) }.trainLane (32 + l)).laneEvent (2 + l)

/-- Is an acknowledge one of the numbers from the oldest record outstanding to the next to be sent? -/
def State.ackFits (s : State) (ack : BitVec 32) : Bool :=
  let oldest := match s.pair.replay with
    | r :: _ => r.seq
    | [] => s.pair.nextSeq
  decide ((ack - oldest).toNat ≤ (s.pair.nextSeq - oldest).toNat)

/-- What the header tells of the partner: epoch, flags, a confirmation that the anchor is lost, the acknowledge, which frees
the records that it passes (R320). -/
def State.peerSeen (s : State) (epoch flags : Nat) (ack : BitVec 32) : State :=
  let rest := if s.ackFits ack then s.pair.replay.filter fun r => !seqBefore r.seq ack else s.pair.replay
  let moved := rest.length < s.pair.replay.length
  { s with pair := { s.pair with
    peerFlags := flags, peerAt := some s.now
    peerEpoch := BitVec.ofNat 32 (max s.pair.peerEpoch.toNat epoch)
    peerDrained := bit flags 13
    confirmRx := if bit flags 12 then some s.now else s.pair.confirmRx
    replay := rest, ackAt := if moved then s.now else s.pair.ackAt } }

/-- The active gives a partner of its epoch a bulk copy when the partner is not IN_SYNC, follows its sequence and has had none
since (R332). A partner that follows none yet ends the copy under way: its records stay outstanding (R320), but begin a copy no
more, and the next acknowledge gets a new one. Once a copy has made the partner IN_SYNC nothing is lost any more (R320, Table
12.9). -/
def State.serveBulk (s : State) (epoch flags : Nat) (ack : BitVec 32) : State :=
  if !s.mirrors then s
  else if bit flags 10 then
    if s.pair.bulkSent then { s with pair := { s.pair with bulkSent := false, loss := false } } else s
  else if bit flags 15 || bit flags 14 || epoch != s.pair.epoch.toNat then s
  else if !s.ackFits ack then
    if ack = 0 then
      { s with pair := { s.pair with
        bulkSent := false, bulkOn := false, replay := s.pair.replay.map fun (r : MirrorRec) => { r with bulk := false } } }
    else s
  else if !s.pair.bulkSent then s.bulkCopy
  else if s.pair.bulkOn then s.bulkSend State.bulkFlows
  else s

/-- SALLAR_FRAME_RX: a good frame arrives on a lane, given from DA to the end of its records (R317, R319, R320). -/
def execSallarFrameRx (t : Nat) (lane : Fin 2) (frame : List Byte) (s : State) : Result :=
  s.run t fun s =>
    if !s.laneOn lane || !s.sallarGood frame then s else
    let s := s.laneSeen lane
    let epoch := beAt frame 18 4
    if epoch < s.pair.epoch.toNat then s.count Num.staleEpoch else
    let flags := beAt frame 30 2
    let q := BitVec.ofNat 32 (beAt frame 22 4)
    let fenced := bit flags 14 && !bit s.pair.peerFlags 14
    let ack := BitVec.ofNat 32 (beAt frame 26 4)
    let s := s.peerSeen epoch flags ack
    let s := if fenced then s.activeFailed else s
    let kind := byteAt frame 15
    let n := beAt frame 34 2
    let s := if s.pair.role == .standby then
        (sallarRecords (kind == 2) n q (frame.drop 36)).foldl State.offerRecord (s.peerSequence kind q n) else s
    s.serveBulk epoch flags ack

/-! ### Fencing (12 R325, R326) -/

/-- The active stops taking frames in and drains for 40 µs. -/
def State.fence (s : State) : State :=
  { s with pair := { s.pair with
    role := .fenced, leaseEnd := none, drainEnd := some (timerEnd s.now 40), drainDone := false } }.roleEvent 1

/-- FENCE_DRAIN_END: what is left is dropped, and the device goes to HOLD (R325). -/
def execFenceDrainEnd (t : Nat) (s : State) : Result :=
  s.run t fun s =>
    match s.pair.drainEnd with
    | some e =>
      if s.pair.role == .fenced && decide (e ≤ s.now) then
        let s := s.endCopies Num.drainDrops
        let s := { s with pair := { s.pair with drainEnd := none, drainDone := true } }
        (s.roleEvent 2).pairRequest .hold
      else s
    | none => s

/-! ### Leases (12 R322, R325, R334) -/

/-- A message from the node given counts when that node is the active anchor (02 R23). -/
def State.isAnchor (s : State) (src : Nat) : Bool := src == s.dom.anchor.toNat && s.dom.anchor != 0xFF

/-- A Pouvex message from the active anchor has come: the anchor is heard (R334). -/
def State.anchorHeard (s : State) (src : Nat) : State :=
  if s.isAnchor src then
    { s with dom.anchorHeard := some s.now, pair.anchorLost := false }
  else s

/-- A message row acts on its message: the oldest such message leaves the list of those taken in (log entry 15). -/
def State.takeMsg (s : State) (msg src : Nat) : State :=
  let m := s.dom.inbox.find? fun m => m.msg == msg && m.src == src
  let s := match m with
    | some x => { s with dom.inbox := s.dom.inbox.erase x }
    | none => s
  s.anchorHeard src

/-- May the device act on a role message from `src`? -/
def State.roleMessage (s : State) (src : Nat) : Bool := s.pairingOn && s.isWorker && s.isAnchor src

/-- The instant at which the heartbeat with a count was sent. -/
def State.heartbeatAt (s : State) (count : Nat) : Option Nat := tfind s.pair.hbSent (count % 65536)

/-- GRANT: accepted when it echoes the epoch and a heartbeat sent no more than 8 µs before (R322). -/
def execGrant (t : Nat) (src epoch count : Nat) (s : State) : Result :=
  s.runMarshal t fun s =>
    let s := s.takeMsg 0x11 src
    let leased := s.pair.role == .active || s.pair.role == .held
    if !s.roleMessage src || !leased then s else
    let inTime := match s.heartbeatAt count with
      | some a => s.recent a 8
      | none => false
    if !inTime then (s.count Num.lateGrants).leaseEvent 1
    else if epoch != s.pair.epoch.toNat then s
    else
      let held := s.pair.role == .held
      let s := { s with pair := { s.pair with role := .active, leaseEnd := some (timerEnd s.now 100) } }.count
        Num.grantsAccepted
      if held then s.leaseEvent 8 else s

/-- LEASE_EXPIRY: the active holds its lease when the standby confirms the loss of the anchor, and fences otherwise (R325,
R334). -/
def execLeaseExpiry (t : Nat) (s : State) : Result :=
  s.run t fun s =>
    match s.pair.leaseEnd with
    | some e =>
      if s.pairingOn && s.pair.role == .active && decide (e ≤ s.now) then
        let confirmed := match s.pair.confirmRx with
          | some c => s.recent c 20
          | none => false
        if s.num 0xA000 7 = 1 && confirmed then
          let s := { s with pair := { s.pair with role := .held, leaseEnd := none } }
          (s.count Num.heldIntervals).leaseEvent 6
        else s.fence
      else s
    | none => s

/-- HOLD_CONFIRM_TIMEOUT: 100 µs without a confirming frame end the hold (R334). -/
def execHoldConfirmTimeout (t : Nat) (s : State) : Result :=
  s.run t fun s =>
    let ended := match s.pair.confirmRx with
      | some c => s.ran c 100
      | none => true
    if s.pairingOn && s.pair.role == .held && ended then (s.leaseEvent 8).fence else s

/-- ANCHOR_LOST: no message from the active anchor for 100 µs (R334); a device of a pair reports that failover is
impossible. -/
def execAnchorLost (t : Nat) (s : State) : Result :=
  s.run t fun s =>
    let silent := match s.dom.anchorHeard with
      | some a => s.ran a 100
      | none => false
    if silent && !s.pair.anchorLost && !s.dom.beaconing then
      let s := { s with pair.anchorLost := true }
      if s.pairingOn then (s.leaseEvent 2).pairEvent 3 else s
    else s

/-- Counts of heartbeats that a GRANT may still echo. -/
def keepRecent (now : Nat) (l : Tab Nat) : Tab Nat := l.filter fun e => decide (now ≤ timerEnd e.2 8)

/-- The flags of HEARTBEAT (13 Table 13.5). -/
def State.heartbeatFlags (s : State) : Nat :=
  let traffic := match s.pair.peerAt with
    | some a => s.recent a 100
    | none => false
  flagIf s.pair.loss 0 + flagIf s.pair.anchorLost 1 + flagIf s.pair.drainDone 2 + flagIf s.dom.withdrawDue.isSome 3
    + flagIf traffic 4 + flagIf s.pair.peerDrained 5

def pairRoleCode (s : State) : Nat := if s.pairingOn then roleCode s.pair.role else 0

/-- The body of HEARTBEAT. -/
def State.heartbeatBody (s : State) (count : Nat) : List Byte :=
  [byte (pairRoleCode s), byte (syncCode s.pair.sync), byte s.pair.laneUp.toNat, byte s.heartbeatFlags]
    ++ beBytes 4 s.pair.epoch.toNat ++ beBytes 2 count ++ [0, 0]

def msgHeartbeat : Nat := 0x10

/-- One message on one marshal port alone, with a new sequence number. -/
def State.pouvexPort (s : State) (port dst msg : Nat) (body : List Byte) : State :=
  { s with dom.seq := s.dom.seq + 1 }.pouvexOn port dst msg s.dom.seq.toNat body

/-- HEARTBEAT_SEND: a numbered worker reports to its anchor on one marshal port, every 20 µs in a pair and at 0xB000.08
otherwise (R322; 13 Table 13.8). -/
def execHeartbeatSend (t : Nat) (port : Fin 2) (s : State) : Result :=
  s.runMarshal t fun s =>
    let due := match tfind s.pair.hbAt port with
      | some a => if s.pairingOn then s.ran a 20 else decide (a + s.num 0xB000 8 * nsPs ≤ s.now)
      | none => true
    if s.isWorker && s.node != 0xFE && s.dom.anchor != 0xFF && due then
      let c := s.pair.hbCount.toNat
      let sent := tput (keepRecent s.now s.pair.hbSent) c s.now
      let s := { s with pair := { s.pair with
        hbCount := s.pair.hbCount + 1, hbSent := sent, hbAt := tput s.pair.hbAt port s.now } }
      s.pouvexPort port s.dom.anchor.toNat msgHeartbeat (s.heartbeatBody c)
    else s

/-! ### Role messages (12 R315, R326, R330, R332, R335) -/

/-- DEMOTE: the active fences at once (R326). -/
def execDemote (t : Nat) (src epoch : Nat) (s : State) : Result :=
  s.runMarshal t fun s =>
    let s := s.takeMsg 0x13 src
    if s.roleMessage src && (s.pair.role == .active || s.pair.role == .held) && epoch == s.pair.epoch.toNat then
      (s.roleEvent 3).fence
    else s

/-- Does a confirmation that this standby sent still forbid a promotion (R335)? -/
def State.confirmed (s : State) : Bool :=
  !s.pair.peerDrained && (match s.pair.confirmTx with
    | some c => decide (s.now < timerEnd c 160)
    | none => false)

/-- Every generator and send counter leaps, every history starts anew, and every meter will start full (R328, R329). -/
def State.leap (s : State) : State :=
  let k := BitVec.ofNat 16 (s.num 0xA000 4)
  let node (n : Node) : Node := { n with
    txSeq := if n.proxied then n.txSeq + k else n.txSeq, delivery := {}, fwdA := {}, fwdB := {} }
  let s := { s with red := { s.red with
    genBase := s.red.genBase + k, recovery := [], nodes := s.red.nodes.map fun (e : Nat × Node) => (e.1, node e.2) } }
  let live := (s.flow.backmap.filter fun e => (backSlot e.2).isSome).map fun (e : Nat × BitVec 32) => (e.1, true)
  { s with flow := { s.flow with meterNew := live } }

/-- A role message ends the safe-to-pull indication (13 R355). -/
def State.roleTaken (s : State) : State := { s with dom.safeToPull := false }

/-- PROMOTE: a standby in step becomes ACTIVE under the new epoch (R330), unless it must refuse (R335). -/
def execPromote (t : Nat) (src epoch : Nat) (s : State) : Result :=
  s.runMarshal t fun s =>
    let s := s.takeMsg 0x12 src
    if !s.roleMessage src || !(s.pair.role == .standby) || epoch ≤ s.pair.epoch.toNat then s
    else if !(s.pair.sync == .inSync) || s.confirmed then s.count Num.refusedPromotions
    else
      let s := s.takeAccepted
      let s := { s with pair := { s.pair with epoch := BitVec.ofNat 32 epoch } }.leap.roleTaken
      let nodes := (s.red.nodes.filter fun e => e.2.proxied).map Prod.fst
      let s := { s with pair := { s.pair with
        role := .active, sync := .none, leaseEnd := some (timerEnd s.now 100), replay := [], loss := false
        bulkSent := false, bulkOn := false, genAll := true, nodeDirty := nodes, digestPos := 0, digestAt := s.now, batchAt := s.now
        drainDone := false }
                        dom.withdrawDue := none }
      ((s.count Num.takeovers).roleEvent 0).pairRequest .active

/-- ASSIGN: DETACHED, or STANDBY with a full resynchronisation (R315, R332). -/
def execAssign (t : Nat) (src role epoch : Nat) (s : State) : Result :=
  s.runMarshal t fun s =>
    let s := s.takeMsg 0x14 src
    if !s.roleMessage src || epoch < s.pair.epoch.toNat || !(role == 0 || role == 2) then s
    else
      let standby := role == 2
      let s := { s with pair := { s.pair with
        role := if standby then .standby else .detached
        sync := if standby then .clearing else .none
        epoch := BitVec.ofNat 32 epoch, leaseEnd := none, drainEnd := none, drainDone := false
        replay := [], accepted := [], adopt := standby, expected := 0, follows := false, asked := false, drawn := []
        bulkSent := false, bulkOn := false } }.roleTaken
      (s.roleEvent 4).pairRequest (if standby then .pairStandby else .active)

/-! ### Resynchronisation (12 R332) -/

/-- What is still due to the records that CLEARING removes: their frames' samples are late, an INSERT in progress finds no
tail, and a flush in progress finds nothing more to remove (log entry 63). -/
def State.clearEnds (s : State) : State :=
  let gone (v : Frame) : Frame := { v with tailGone := v.tail.isSome }
  let s := { s with buf.frames := s.buf.frames.map fun (e : Nat × Frame) => (e.1, gone e.2) }
  let s := if s.flow.inserts.any Insert.command then s.flowDone 2 else s
  s.fdb.flushes.foldl State.flushEnd s

/-- RESYNC_CLEAR_DONE: flow table, bindings, FDB and free list are clear, and the bulk copy may come. -/
def execResyncClearDone (t : Nat) (s : State) : Result :=
  s.run t fun s =>
    if s.pairingOn && s.pair.role == .standby && s.pair.sync == .clearing then
      let s := s.clearEnds
      let s := { s with flow := { s.flow with
        heads := [], tails := [], backmap := [], free := {}, inUse := 0, headCache := [], tailCache := [], deltas := [], live := []
        cam := [], inserts := [], pat := [], bindings := [], ports := [], owners := [], blocks := [], cursors := []
        meterNew := [] } }
      let s := { s with fdb := { s.fdb with entries := [], excluded := [], queue := [], ageOuts := [], flushes := [] } }
      { s with pair.sync := .bulk }.drain
    else s

/-- Has the standby the whole copy? Every tail index is in its free list, in a record, or drawn by a record of the stream and not
yet placed or returned; so no FLOW_PLACE of the copy is missing (DEDUCED, log entry 63). -/
def State.copyWhole (s : State) : Bool :=
  let live := (s.flow.backmap.filter fun e => (backSlot e.2).isSome).length
  decide (tailCount ≤ Runs.count s.flow.free.runs + live + s.pair.drawn.length)

/-- BULK_COMPLETE: the bulk copy is complete, and every record up to that point has been applied. -/
def execBulkComplete (t : Nat) (s : State) : Result :=
  s.run t fun s =>
    if s.pairingOn && s.pair.role == .standby && s.pair.sync == .bulk && !s.pair.adopt
        && s.pair.accepted.isEmpty && s.pair.expected == s.pair.peerNext && s.copyWhole then
      let s := { s with flow.inUse := tailCount - Runs.count s.flow.free.runs }
      { s with pair := { s.pair with sync := .inSync, loss := false } }.pairEvent 2
    else s

end Sys2Proof.Machine
end

