-- ==== Sys2Proof/Machine/Domain.lean ====
section
/-! DEFINITION. Domains, the anchor and Pouvex: frames of the marshal ports, the active anchor, leases as the anchor keeps
them, the roster, strangers, enrolment and forwarded events (13; 12 R322, R324). -/
namespace Sys2Proof.Machine

/-! ### Messages (13 Tables 13.3, 13.4) -/

def msgDictReq : Nat := 0x01
def msgDictRsp : Nat := 0x02
def msgGrant : Nat := 0x11
def msgPromote : Nat := 0x12
def msgWithdraw : Nat := 0x15
def msgRelease : Nat := 0x16
def msgEventAck : Nat := 0x21
def msgBeacon : Nat := 0x30
def msgAnnounce : Nat := 0x31
def msgEnrol : Nat := 0x32
def msgEnrolAck : Nat := 0x33

/-- The message types of Table 13.4. -/
def pouvexTypes : List Nat :=
  [0x01, 0x02, 0x10, 0x11, 0x12, 0x13, 0x14, 0x15, 0x16, 0x20, 0x21, 0x30, 0x31, 0x32, 0x33]

/-- Node numbers that stand for all devices and for the unnumbered ones. -/
def nodeAll : Nat := 63
def nodeNone : Nat := 0xFE

/-- The identity key hash of this device (0x100A.00). -/
def ownHash : List Byte := Machine.slice Config.identityHash 0 32

/-- The resend interval (0xB000.0A), ps. -/
def State.resendPs (s : State) : Nat := s.num 0xB000 10 * nsPs

/-! ### Frames of the marshal ports (13 R341, R344, R345) -/

/-- Why a frame is discarded: 0 VERSION, DOMAIN or MSG; 1 DST; 2 LENGTH, FRAG or FRAGS. -/
def State.pouvexBad (s : State) (b : List Byte) : Option Nat :=
  let dst := byteAt b 16
  let n := beAt b 22 2
  let frag := byteAt b 24
  let frags := byteAt b 25
  let here := if frag + 1 = frags then n - 1024 * frag else 1024
  let named := dst == nodeNone && byteAt b 15 == msgEnrol && Machine.slice b 30 32 == ownHash
  if byteAt b 14 != 1 || beAt b 26 4 != s.num 0xB000 2 || !pouvexTypes.contains (byteAt b 15) then some 0
  else if !((dst == s.node && dst != nodeNone) || dst == nodeAll || named) then some 1
  else if n > 4128 || frags != pouvexFrames n || frag ≥ frags || b.length != max 60 (30 + here) then some 2
  else none

/-- The message sequence numbers taken in from a source. -/
def State.takenFrom (s : State) (src seq : Nat) : Bool := src != nodeNone && (tget s.dom.taken src []).contains seq

/-- A whole message is taken in: its number is noted, and it waits for its row. -/
def State.messageIn (s : State) (m : PouvexMsg) : State :=
  let s := { s with dom.inbox := s.dom.inbox ++ [m] }
  let s := if m.src == nodeNone then s
    else { s with dom.taken := tset [] s.dom.taken m.src ((m.seq :: tget s.dom.taken m.src []).take 64) }
  s.anchorHeard m.src

/-- The partial message of a source and number. -/
def State.partialOf (s : State) (src seq : Nat) : Option Partial := s.dom.partials.find? fun p => p.src == src && p.seq == seq
def State.dropPartial (s : State) (src seq : Nat) : State :=
  { s with dom.partials := s.dom.partials.filter fun p => !(p.src == src && p.seq == seq) }

/-- Has a partial message waited 1 ms? -/
def State.partialLate (s : State) (p : Partial) : Bool := decide (p.since + 1000 * usPs < s.now)

/-- A fragment joins its message; the message is taken in when it is whole. -/
def State.fragmentIn (s : State) (port : Fin 2) (b : List Byte) : State :=
  let src := byteAt b 17
  let seq := beAt b 20 2
  let n := beAt b 22 2
  let frag := byteAt b 24
  let frags := byteAt b 25
  let body := (b.drop 30).take (min 1024 (n - 1024 * frag))
  if frags = 1 then s.messageIn { port, msg := byteAt b 15, src, seq, body }
  else
    let s := match s.partialOf src seq with
      | some p => if s.partialLate p then (s.dropPartial src seq).count Num.reassemblyFailures else s
      | none => s
    let old := s.partialOf src seq
    if old.isNone && s.dom.partials.length ≥ 16 then s else
    let p : Partial := old.getD { port, msg := byteAt b 15, src, seq, length := n, frags, since := s.now }
    let p := { p with got := tput p.got frag body }
    let s := s.dropPartial src seq
    if p.got.length = p.frags then
      s.messageIn { port, msg := p.msg, src, seq, body := (p.got.map Prod.snd).flatten }
    else { s with dom.partials := s.dom.partials ++ [p] }

/-- The relay of a dual ring (R341): what is not for this device alone goes on, one TTL less. -/
def State.pouvexRelay (s : State) (port : Fin 2) (b : List Byte) : State :=
  let own := s.node != nodeNone
  let ttl := byteAt b 19
  if s.num 0xB000 3 = 1 && !(own && byteAt b 16 == s.node) && !(own && byteAt b 17 == s.node) && ttl > 1 then
    s.queueWire (1 - port.val) { lease := leaseClass (byteAt b 15), relay := true, frame := splice b 19 [byte (ttl - 1)] }
  else s

/-- POUVEX_FRAME_RX: a frame arrives on a marshal port, given from DA to the byte before its FCS (R339 to R345). The
relay is hardware; nothing is taken in while the Marshal group does not run (11 R292). -/
def execPouvexFrameRx (t : Nat) (port : Fin 2) (frame : List Byte) (s : State) : Result :=
  s.run t fun s =>
    if s.domainRole = 0 || !s.wireRuns port || beAt frame 12 2 != 0x88B5 then s else
    let s := (s.count (Num.pouvexReceived port)).pouvexRelay port frame
    if !s.groupActs marshalGroup then s else
    match s.pouvexBad frame with
    | some r => s.count (Num.pouvexDiscarded port r)
    | none =>
      if s.takenFrom (byteAt frame 17) (beAt frame 20 2) then
        if byteAt frame 24 = 0 then s.count Num.pouvexDuplicates else s
      else s.fragmentIn port frame

/-- POUVEX_REASSEMBLY_TIMEOUT: a message not whole 1 ms after its first fragment is discarded (R344). -/
def execPouvexReassemblyTimeout (t : Nat) (src seq : Nat) (s : State) : Result :=
  s.run t fun s =>
    match s.partialOf src seq with
    | some p => if p.since + 1000 * usPs ≤ s.now then (s.dropPartial src seq).count Num.reassemblyFailures else s
    | none => s

/-! ### The roster (13 Table 13.6, R353) -/

def State.rosterRole (s : State) (n : Nat) : Nat := s.blk 0xB100 0 (64 * n + 32) 1
def State.rosterPartner (s : State) (n : Nat) : Nat := s.blk 0xB100 0 (64 * n + 33) 1
def State.rosterForward (s : State) (n : Nat) : Bool := bit (s.blk 0xB100 0 (64 * n + 34) 1) 0
def State.rosterNamed (s : State) (n : Nat) : Bool := bit (s.blk 0xB100 0 (64 * n + 35) 1) 0
def State.rosterHash (s : State) (n : Nat) : List Byte := (List.range 32).map fun i => byte (s.active 0xB100 0 (64 * n + i))

def State.live (s : State) (n : Nat) : RosterState := tget s.dom.roster n {}
def State.setLive (s : State) (n : Nat) (r : RosterState) : State := { s with dom.roster := tset {} s.dom.roster n r }
def State.rosterEvent (s : State) (flag n : Nat) : State := s.raise 0x1B5 (2 ^ flag) [byte n]

/-- Is this device the active anchor? -/
def State.anchors (s : State) : Bool := s.isAnchorRole && s.dom.beaconing

/-- ENROL with the identity, the node number and FORWARD of an entry. -/
def State.sendEnrol (s : State) (dst n : Nat) : State :=
  s.pouvexSend dst msgEnrol (s.rosterHash n ++ [byte n, byte (b1 (s.rosterForward n)), 0, 0])

/-- Withdraw pending of an entry: a rise raises the roster event. -/
def State.setWithdraw (s : State) (n : Nat) (w : Bool) : State :=
  let r := s.live n
  let s := s.setLive n { r with withdraw := w }
  if w && !r.withdraw then s.rosterEvent 2 n else s

/-- What a committed roster makes of the live states (R353): empty, or expected where an entry is new or its HASH changed. Each
change raises the roster event, which has no flag for these two (log entry 88). -/
def State.rosterCommitted (s : State) (oldHash : Nat → List Byte) (oldRole : Nat → Nat) : State :=
  let s := { s with dom.rosterCommits := s.dom.rosterCommits + 1 }
  (List.range 64).foldl (fun (s : State) n =>
    let r := s.live n
    let become (p : Nat) (x : RosterState) : State :=
      if r.presence = p then s.setLive n x else (s.setLive n x).raise 0x1B5 0 [byte n]
    if s.rosterRole n = 0 then become 0 {}
    else if oldRole n = 0 then become 1 { presence := 1 }
    else if oldHash n != s.rosterHash n then become 1 { r with presence := 1 }
    else s) s

/-! ### Leases as the anchor keeps them (12 R322, R324, R326) -/

/-- Has a heartbeat of the node come within the last 100 µs? -/
def State.heardLately (s : State) (r : RosterState) : Bool := r.role != 0 && decide (s.now ≤ r.at_ + 100 * usPs)

/-- What forbids promoting the partner of an active, as flags of the no-standby event. -/
def State.noStandby (s : State) (a p : RosterState) : Nat :=
  flagIf (!(p.role == 2 && p.sync == 3)) 0 + flagIf (bit a.flags 0) 1 + flagIf (!s.heardLately p) 2

/-- Did the active fall silent while its partner still saw Sallar traffic? -/
def State.brokenPath (s : State) (a p : RosterState) : Bool := !s.heardLately a && s.heardLately p && bit p.flags 4

/-- Send PROMOTE to the partner of an active, under the pair epoch plus one. The lapsed lease stands until a GRANT goes to the
partner, so that a refused PROMOTE is sent again at a later heartbeat (12 R324, R335). -/
def State.sendPromote (s : State) (n p : Nat) : State :=
  let e := max (s.live n).epoch (s.live p).epoch + 1
  let s := s.setLive p { s.live p with promised := e }
  s.pouvexSend p msgPromote (beBytes 4 e)

/-- The lease of the pair's active has lapsed: promote its partner, or raise the no-standby event (R324). -/
def State.lapse (s : State) (n : Nat) : State :=
  let p := s.rosterPartner n
  match (s.live n).leaseEnd with
  | none => s
  | some e =>
    if s.ran e 10 && s.dom.promoteFrom ≤ s.now && decide (1 ≤ p) && decide (p ≤ 31) then
      let bad := s.noStandby (s.live n) (s.live p)
      let flags := bad + flagIf (s.brokenPath (s.live n) (s.live p)) 3
      let s := if flags = 0 then s else s.raise 0x1B2 flags [byte n]
      if bad = 0 then s.sendPromote n p else s
    else s

/-- ANCHOR_LEASE_EXPIRY: the anchor's lease timer of a pair has expired, and a further 10 µs have passed (R324). -/
def execAnchorLeaseExpiry (t : Nat) (active : Fin 64) (s : State) : Result :=
  s.runMarshal t fun s => if s.anchors then s.lapse active else s

/-- A heartbeat of a present node dates its entry; one of an expected or lost node asks for its identity (R353). -/
def State.heartbeatPresence (s : State) (n : Nat) : State :=
  let r := s.live n
  if r.presence = 2 then s.setLive n { r with seen := s.us0 % 2 ^ 32 }
  else
    let due := match r.enrolled with
      | some a => decide (a + s.resendPs ≤ s.now)
      | none => true
    if due then (s.setLive n { r with enrolled := some s.now }).sendEnrol n n else s

/-- The answer to a heartbeat: the active of the newest epoch gets a GRANT on the port the heartbeat came on, and the lease
timer starts again (12 R322). The pair's lease is that device's now. -/
def State.grantTo (s : State) (n : Nat) (port : Fin 2) (b : HeartbeatBody) : State :=
  let p := s.rosterPartner n
  let newest := max (s.live n).promised (max (s.live p).promised (s.live p).epoch)
  if (b.role = 1 || b.role = 4) && newest ≤ b.epoch then
    let s := if 1 ≤ p ∧ p ≤ 31 then s.setLive p { s.live p with leaseEnd := none } else s
    let s := s.setLive n { s.live n with leaseEnd := some (timerEnd s.now 100) }
    s.pouvexPort port n msgGrant (beBytes 4 b.epoch ++ beBytes 2 b.count ++ [0, 0])
  else s

/-- A planned handover: the old active reports its drain complete, itself or through its partner (R326). -/
def State.handover (s : State) (n : Nat) : State :=
  let p := s.rosterPartner n
  let pair (a q : Nat) (s : State) : State :=
    let x := s.live a
    let y := s.live q
    let drained := (x.role == 3 && bit x.flags 2) || (bit y.flags 5 && s.heardLately y)
    let waits := x.leaseEnd.isSome && decide (y.promised ≤ x.epoch)
    if drained && waits && s.noStandby x y = 0 && decide (s.dom.promoteFrom ≤ s.now) then s.sendPromote a q else s
  if 1 ≤ p ∧ p ≤ 31 then pair p n (pair n p s) else s

/-- HEARTBEAT_RX: the anchor takes in a heartbeat on a marshal port (12 R322; 13 R353). -/
def execHeartbeatRx (t : Nat) (node : Nat) (port : Fin 2) (body : HeartbeatBody) (s : State) : Result :=
  s.runMarshal t fun s =>
    let s := s.takeMsg msgHeartbeat node
    if !s.anchors || node > 63 || s.rosterRole node != 1 then s else
    let s := s.heartbeatPresence node
    let r := s.live node
    let r := { r with
      role := body.role, sync := body.sync, epoch := body.epoch, flags := body.flags, lanes := body.lanes, at_ := s.now }
    -- the entry of an expected or lost node stays as it stands
    let s := if r.presence = 2 then
        (s.setLive node { r with shownRole := body.role, shownSync := body.sync, shownEpoch := body.epoch }).setWithdraw
          node (bit body.flags 3)
      else s.setLive node r
    let s := s.grantTo node port body
    let s := s.handover node
    let p := s.rosterPartner node
    if body.role = 2 && decide (1 ≤ p) && decide (p ≤ 31) then s.lapse p else s

/-! ### The active anchor (13 R346, R347) -/

def State.anchorEvent (s : State) (flag : Nat) : State :=
  s.raise 0x1B3 (2 ^ flag) (capture [(1, s.dom.anchor.toNat), (4, s.dom.anchorEpoch.toNat)])

/-- The active anchor becomes a node with its epoch. -/
def State.setAnchor (s : State) (node epoch : Nat) : State :=
  let changed := s.dom.anchor.toNat != node
  let s := { s with dom := { s.dom with anchor := BitVec.ofNat 8 node, anchorEpoch := BitVec.ofNat 32 epoch } }
  if changed then s.anchorEvent 0 else s

/-- BEACON_SEND: the active anchor sends BEACON on M0 and M1 every 20 µs (R346). -/
def execBeaconSend (t : Nat) (s : State) : Result :=
  s.runMarshal t fun s =>
    let due := match s.dom.beaconAt with
      | some a => decide (a + 20 * usPs ≤ s.now)
      | none => true
    if s.anchors && due then
      let p := ptimeOfNs s.ns0
      let s := { s with dom.beaconAt := some s.now }
      s.pouvexSend nodeAll msgBeacon (beBytes 4 s.dom.anchorEpoch.toNat
        ++ [byte s.node, byte (b1 (s.rosterRole 62 != 0)), 0, 0] ++ beBytes 4 s.dom.rosterCommits
        ++ beBytes 6 p.sec ++ beBytes 4 p.ns)
    else s

/-- The beacon with the highest epoch among those given; of two with one epoch, that of the anchor followed so far. -/
def bestBeacon (current : Nat) : List Beacon → Option Beacon
  | [] => none
  | b :: l =>
    match bestBeacon current l with
    | none => some b
    | some c =>
      if b.epoch > c.epoch then some b
      else if b.epoch = c.epoch && b.node == current then some b else some c

/-- BEACON_RX: a device takes a BEACON and chooses its active anchor (R346, R347). -/
def execBeaconRx (t : Nat) (body : BeaconBody) (s : State) : Result :=
  s.runMarshal t fun s =>
    if s.domainRole = 0 then s else
    let s := s.takeMsg msgBeacon body.node
    let recent := s.dom.beacons.filter fun (b : Beacon) => decide (s.now ≤ b.at_ + 100 * usPs) && b.node != body.node
    let heard : Beacon := { node := body.node, epoch := body.epoch, at_ := s.now }
    let all := recent ++ [heard]
    let high := max s.dom.highest.toNat body.epoch
    let yields := s.dom.beaconing && decide (s.dom.anchorEpoch.toNat < body.epoch)
    let s := { s with dom := { s.dom with
      beacons := all, highest := BitVec.ofNat 32 high
      beaconing := s.dom.beaconing && !yields
      offset := (s.ns0 : Int) - (body.seconds * secNs + body.nanos : Nat) } }
    let own : List Beacon := if s.anchors then [{ node := s.node, epoch := s.dom.anchorEpoch.toNat, at_ := s.now }] else []
    match bestBeacon s.dom.anchor.toNat (own ++ all) with
    | none => s
    | some b =>
      let rivals := (own ++ all).any fun c => c.epoch == b.epoch && c.node != b.node
      let s := (s.setAnchor b.node b.epoch).anchorHeard body.node
      if rivals && b.epoch == body.epoch then s.anchorEvent 1 else s

/-- A write of true to 0xB103.02 on node 62 (R347): one epoch above the highest seen, every pair's lease granted now, and no
PROMOTE before 115 µs have passed. -/
def State.takeAnchor (s : State) : State :=
  if s.domainRole != 3 then s else
  let e := s.dom.highest.toNat + 1
  let s := { s with dom := { s.dom with
    highest := BitVec.ofNat 32 e, beaconing := true, promoteFrom := timerEnd s.now 115 }
                    pair.anchorLost := false }
  let s := s.setAnchor 62 e
  (List.range 32).foldl (fun (s : State) n =>
    let p := s.rosterPartner n
    if s.rosterRole n = 1 && decide (1 ≤ p) && decide (p ≤ 31) then
      s.setLive n { s.live n with leaseEnd := some (timerEnd s.now 100) }
    else s) s

/-! ### Events across the domain (13 R350, R351) -/

/-- EVENT_RX: the anchor logs an EVENT on ring 34 and acknowledges it (R351). -/
def execEventRx (t : Nat) (src : Nat) (body : List Byte) (s : State) : Result :=
  s.runMarshal t fun s =>
    let s := s.takeMsg msgEvent src
    if !s.isAnchorRole then s else
    let n := beAt body 0 2
    let (ok, s) := s.log 34 (eventRecord src n (beAt body 4 4) (beAt body 8 8) (Machine.slice body 16 16))
    let s := if ok then (s.count (Num.localWritten 0)).count Num.eventsLogged else s.count (Num.localLost 0)
    s.pouvexSend src msgEventAck (beBytes 2 n ++ Machine.slice body 4 2)

/-- EVENT_ACK: the acknowledge of the EVENT of a source, with the SEQ it carries; content that replaced it goes out (R350).
-/
def execEventAck (t : Nat) (n : Fin 1024) (seq : BitVec 16) (s : State) : Result :=
  s.runMarshal t fun s =>
    let s := s.takeMsg msgEventAck s.dom.anchor.toNat
    match tfind s.dom.forwards n with
    | some f =>
      if f.seq = seq then
        match f.replaced with
        | some b => s.forwardNow n (BitVec.ofNat 16 (beAt b 4 2)) b
        | none => { s with dom.forwards := tdel s.dom.forwards n }
      else s
    | none => s

/-- EVENT_RESEND: an EVENT not acknowledged for the resend interval goes again, with the content that replaced it, if any
(R350). -/
def execEventResend (t : Nat) (n : Fin 1024) (s : State) : Result :=
  s.runMarshal t fun s =>
    match tfind s.dom.forwards n with
    | some f =>
      if f.due ≤ s.now then
        match f.replaced with
        | some b => s.forwardNow n (BitVec.ofNat 16 (beAt b 4 2)) b
        | none =>
          let s := { s with dom.forwards := tput s.dom.forwards n { f with due := s.now + s.resendPs } }
          s.pouvexSend s.dom.anchor.toNat msgEvent f.body
      else s
    | none => s

/-! ### Strangers and enrolment (13 R353, R354) -/

/-- ANNOUNCE_SEND: an unnumbered worker announces its identity every 1 ms (R354). -/
def execAnnounceSend (t : Nat) (s : State) : Result :=
  s.runMarshal t fun s =>
    let due := match s.dom.announceAt with
      | some a => decide (a + 1000 * usPs ≤ s.now)
      | none => true
    if s.isWorker && s.node == nodeNone && due then
      let s := { s with dom.announceAt := some s.now }
      s.pouvexSend nodeAll msgAnnounce (ownHash ++ Machine.slice Config.serial 0 8 ++ beBytes 2 (s.num 0x1001 0)
        ++ beBytes 2 (s.num 0x1002 0) ++ beBytes 4 (s.num 0x1003 0) ++ [byte s.domainRole, 0, 0, 0])
    else s

/-- A stranger heard: refreshed, entered, or refused for a full table (R354). -/
def State.stranger (s : State) (port : Fin 2) (id : List Byte) : State :=
  let us := s.us0 % 2 ^ 32
  let hash := Machine.slice id 0 32
  match s.dom.strangers.find? fun e => Machine.slice e.2.id 0 32 == hash with
  | some (i, x) => { s with dom.strangers := tput s.dom.strangers i { x with id := Machine.slice id 0 48, last := us, at_ := s.now } }
  | none =>
    match firstFrom 0 16 fun i => (tfind s.dom.strangers i).isNone with
    | some i =>
      let x : Stranger := { id := Machine.slice id 0 48, port, first := us, last := us, at_ := s.now }
      { s with dom.strangers := tput s.dom.strangers i x }.raise 0x1B6 1 [byte i]
    | none =>
      -- no entry, so the index captured is left open
      let (x, s) := s.free
      (s.count Num.strangersRefused).raise 0x1B6 2 [byte x]

/-- ANNOUNCE_RX: the active anchor enrols a device whose identity stands in a worker entry, or notes a stranger (R354). -/
def execAnnounceRx (t : Nat) (port : Fin 2) (body : AnnounceBody) (s : State) : Result :=
  s.runMarshal t fun s =>
    let s := s.takeMsg msgAnnounce nodeNone
    if !s.anchors then s else
    let hash := Machine.slice body.bytes 0 32
    let holder := (List.range 64).find? fun n => s.rosterRole n != 0 && s.rosterHash n == hash
    match holder with
    | some n => if s.rosterRole n = 1 then s.sendEnrol nodeNone n else s
    | none => s.stranger port body.bytes

/-- The answer to an ENROL. -/
def State.enrolAck (s : State) (dst node result : Nat) : State :=
  s.pouvexSend dst msgEnrolAck [byte node, byte result, 0, 0]

def State.enrolEvent (s : State) (flags : Nat) : State := s.raise 0x1B4 flags [byte s.node]

/-- ENROL: taken from the active anchor with the device's own hash by a worker, refused otherwise (R340, R354). The result of
a refusal for which Table 13.5 has no code, of another sender or of a node number outside 1 to 31, is a free value that is not
0 (log entry 88). -/
def execEnrol (t : Nat) (src : Nat) (hash : List Byte) (node : Nat) (forward : Bool) (s : State) : Result :=
  s.runAo t fun s =>
    if s.dormant || !s.groupActs marshalGroup then s else
    let s := s.takeMsg msgEnrol src
    if s.domainRole = 0 then s
    else if hash ≠ ownHash then (s.enrolAck src node 1).enrolEvent 4
    else if !s.isWorker then (s.enrolAck src node 2).enrolEvent 4
    else if !s.isAnchor src || node = 0 || node > 31 then
      let (x, s) := s.free
      (s.enrolAck src node (1 + x % 255)).enrolEvent 4
    else
      let renumbered := s.node != nodeNone && s.node != node
      let s := { s with ao.node := BitVec.ofNat 8 node }
      let s := { s with dom := { s.dom with member := forward, safeToPull := false } }
      (s.enrolAck src node 0).enrolEvent (1 + flagIf renumbered 1)

/-- ENROL_ACK: the entry becomes present at one with result 0 from its node, or a mismatch is reported (R353). -/
def execEnrolAck (t : Nat) (src node result : Nat) (s : State) : Result :=
  s.runMarshal t fun s =>
    let s := s.takeMsg msgEnrolAck src
    if !s.anchors || node > 63 || s.rosterRole node != 1 then s
    else if result = 0 then
      if src ≠ node then s else
      let r := s.live node
      let fresh := r.presence != 2
      let s := s.setLive node { r with
        presence := 2, enrolled := none, seen := s.us0 % 2 ^ 32, at_ := s.now, released := false }
      let known (e : Nat × Stranger) : Bool := Machine.slice e.2.id 0 32 == s.rosterHash node
      let s := { s with dom.strangers := s.dom.strangers.filter fun e => !known e }
      if fresh then s.rosterEvent 0 node else s
    else if result = 1 then s.rosterEvent 4 node
    else s

/-- The lost time (0xB103.01), ps. -/
def State.lostPs (s : State) : Nat := s.num 0xB103 1 * nsPs

/-- ROSTER_LOST_TIMEOUT: no heartbeat of a present node for the lost time (R353). -/
def execRosterLostTimeout (t : Nat) (n : Fin 64) (s : State) : Result :=
  s.run t fun s =>
    let r := s.live n
    if s.anchors && r.presence == 2 && decide (r.at_ + s.lostPs ≤ s.now) then
      (s.setLive n { r with presence := 3 }).rosterEvent 1 n
    else s

/-- STRANGER_TIMEOUT: a stranger not heard for the lost time leaves the table (R354). -/
def execStrangerTimeout (t : Nat) (i : Fin 16) (s : State) : Result :=
  s.run t fun s =>
    match tfind s.dom.strangers i with
    | some x => if x.at_ + s.lostPs ≤ s.now then { s with dom.strangers := tdel s.dom.strangers i } else s
    | none => s

/-- A write of a node to 0xB103.04: ENROL to the device of that entry, whatever number it holds (R354). -/
def State.reEnrol (s : State) (n : Nat) : State :=
  if s.anchors && s.rosterRole n == 1 then s.sendEnrol nodeNone n else s

/-! ### Withdrawal (13 R355) -/

/-- A short press asks the anchor for the handover: WITHDRAW now, and again at each resend interval (R355). -/
def State.withdraw (s : State) : State :=
  if s.isWorker && s.node != nodeNone then
    { s with dom.withdrawDue := some (s.now + s.resendPs) }.pouvexSend s.dom.anchor.toNat msgWithdraw [0, 0, 0, 0]
  else s

/-- WITHDRAW_RESEND: no RELEASE has come for the resend interval (R355). -/
def execWithdrawResend (t : Nat) (s : State) : Result :=
  s.runMarshal t fun s =>
    match s.dom.withdrawDue with
    | some d => if d ≤ s.now then s.withdraw else s
    | none => s

/-- WITHDRAW_RX: the anchor notes the request (R355). -/
def execWithdrawRx (t : Nat) (src : Nat) (s : State) : Result :=
  s.runMarshal t fun s =>
    let s := s.takeMsg msgWithdraw src
    if s.anchors && decide (src ≤ 63) && s.rosterRole src == 1 then s.setWithdraw src true else s

/-- A write of a node to 0xB103.03: RELEASE to the node (R355). -/
def State.releaseNode (s : State) (n : Nat) : State :=
  if s.anchors then
    let s := if s.rosterRole n = 1 then (s.setLive n { s.live n with released := true }).rosterEvent 3 n else s
    s.pouvexSend n msgRelease [1, 0, 0, 0]
  else s

/-- RELEASE_RX: a worker learns that it is safe to pull (R355). -/
def execReleaseRx (t : Nat) (src : Nat) (flags : BitVec 8) (s : State) : Result :=
  s.runMarshal t fun s =>
    let s := s.takeMsg msgRelease src
    if s.isWorker && s.isAnchor src then
      { s with dom := { s.dom with safeToPull := bit flags.toNat 0, withdrawDue := none } }
    else s

end Sys2Proof.Machine
end

