-- ==== Sys2Proof/Machine/Panel.lean ====
section
/-! DEFINITION. The front panel and the temperature sensors: sense and LED chains, module presence, the service button,
identify (17 R437 to R440, R448). -/
namespace Sys2Proof.Machine

/-! ### The sense chain (R437, R438) -/

/-- MODPRS_N of cage `c` as accepted: is a module present? -/
def State.cagePresent (s : State) (c : Nat) : Bool := bit s.panel.present.toNat c
/-- Is cage `c` fitted (0xF100.08)? -/
def State.cageFitted (s : State) (c : Nat) : Bool := bit (s.num 0xF100 8) c

/-- One cage at a scan: a level that differs from what is accepted starts to settle; one that returns was a bounce. -/
def State.scanCage (s : State) (c : Nat) (present : Bool) : State :=
  if !s.cageFitted c then s
  else if present == s.cagePresent c then
    if (tfind s.panel.changed c).isSome then
      { s with panel.changed := tdel s.panel.changed c }.count (Num.bounces c)
    else s
  else if (tfind s.panel.changed c).isNone then { s with panel.changed := tput s.panel.changed c s.now }
  else s

/-- SENSE_CHAIN_SCAN: 72 bits are sampled, bit 0 first (R437). -/
def execSenseChainScan (t : Nat) (chain : BitVec 72) (s : State) : Result :=
  s.runAny t fun s =>
    let v := chain.toNat
    let ints := ((List.range 32).map fun c => flagIf (!bit v (2 * c + 1)) c).sum
    let s := { s with panel := { s.panel with
      interrupts := BitVec.ofNat 32 ints, inputs := BitVec.ofNat 8 (bits v 64 8) } }
    (List.range 32).foldl (fun (s : State) c => s.scanCage c (!bit v (2 * c))) s

/-- The settle time: 10 ms for an insertion, 1 ms for a removal. -/
def settlePs (present : Bool) : Nat := if present then 10000 * usPs else 1000 * usPs

/-- MODULE_PRESENCE_CHANGE: a change of cage `c` has settled (R438). -/
def execModulePresenceChange (t : Nat) (c : Fin 32) (s : State) : Result :=
  s.runAny t fun s =>
    let now := !s.cagePresent c
    match tfind s.panel.changed c with
    | some a =>
      if a + settlePs now ≤ s.now then
        if now && !s.cageFitted c then { s with panel.changed := tdel s.panel.changed c } else
        let s := { s with panel := { s.panel with
          present := s.panel.present ^^^ BitVec.ofNat 32 (2 ^ c.val), changed := tdel s.panel.changed c } }
        if now then s.count (Num.insertions c)
        else
          let s := s.count (Num.removals c)
          if s.cageFitted c && s.portMode c != 0 then s.takeDown c else s
      else s
    | none => s

/-! ### The LED chain (R437, R439) -/

/-- Is a light of `hz` cycles a second lit now? Its phase is open (log entry 8). -/
def State.blinks (s : State) (n hz : Nat) : Bool :=
  (s.now + Config.ledPhase n) / (secNs * nsPs / (2 * hz)) % 2 == 0

/-- Does a port send or receive now? -/
def State.portBusy (s : State) (p : Nat) : Bool :=
  (s.egr p).tx.isSome || s.buf.frames.any fun e => e.2.port == p && e.2.endAt.isNone

/-- The four bits of cage and port `c`. -/
def State.cageBits (s : State) (c : Nat) : Nat :=
  b1 (!bit (s.num 0xF100 3) c) + 2 * b1 (bit (s.num 0xF100 4) c) + 4 * b1 ((s.port c).link == .up)
    + 8 * b1 (s.portBusy c && s.blinks c 8)

/-- The 136 bits of the output chain (Table 17.7). -/
def State.ledBits (s : State) : Nat :=
  ((List.range 32).map fun c => s.cageBits c * 2 ^ (4 * c)).sum
    + flagIf s.dom.withdrawDue.isSome 128 + flagIf s.dom.safeToPull 129
    + flagIf (s.panel.identifyEnd.isSome && s.blinks 32 2) 130
    + s.num 0xF100 6 % 16 * 2 ^ 131

/-- LED_CHAIN_LATCH: the output chain is shifted and latched; the first latch enables the outputs (R437). -/
def execLedChainLatch (t : Nat) (s : State) : Result :=
  s.runAo t fun s => { s.emit (.ledChain s.ledBits) with ao := { s.ao with ledOn := true } }

/-! ### The service button and identify (R440) -/

def State.identifyOn (s : State) : State := { s with panel.identifyEnd := some (s.now + 60 * secNs * nsPs) }
def State.identifyOff (s : State) : State := { s with panel.identifyEnd := none }

/-- SERVICE_BUTTON_RELEASE: a short press, which in DORMANT is only counted, the Marshal being off; else it asks the anchor for
the handover, once. -/
def execServiceButtonRelease (t : Nat) (s : State) : Result :=
  s.runAny t fun s =>
    if s.pressWakes then s else
    let s := s.count (Num.buttonPresses 0)
    if s.dormant || s.dom.withdrawDue.isSome then s else s.withdraw

/-- SERVICE_BUTTON_LONG_PRESS: identify starts or stops. -/
def execServiceButtonLongPress (t : Nat) (s : State) : Result :=
  s.runAny t fun s =>
    if s.pressWakes then s else
    let s := s.count (Num.buttonPresses 1)
    if s.panel.identifyEnd.isSome then s.identifyOff else s.identifyOn

/-- IDENTIFY_TIMEOUT: identify has run for 60 s. -/
def execIdentifyTimeout (t : Nat) (s : State) : Result :=
  s.runAny t fun s =>
    match s.panel.identifyEnd with
    | some e => if e ≤ s.now then s.identifyOff else s
    | none => s

/-! ### Temperature (R448) -/

/-- THERM_N after a reading: low from the warning threshold until 3 °C below it. -/
def thermNow (was : Bool) (die warn : Int) : Bool := decide (warn ≤ die) || (was && decide (warn - 3000 < die))

/-- The warning threshold (0xF000.05), m°C. -/
def State.thermWarn (s : State) : Int := signed 4 (s.num 0xF000 5)

/-- THERMAL_SAMPLE: the sensors are read (R448). -/
def execThermalSample (t : Nat) (temps : Temps) (s : State) : Result :=
  s.runAo t fun s =>
    let therm := thermNow s.panel.therm temps.die s.thermWarn
    let rises := therm && !s.panel.therm
    let trip := decide (118000 ≤ temps.die) || decide (100000 ≤ temps.stack0) || decide (100000 ≤ temps.stack1)
    let s := { s with panel := { s.panel with
      die := temps.die, stack0 := temps.stack0, stack1 := temps.stack1, dieHigh := max s.panel.dieHigh temps.die
      therm, refresh0 := decide (85000 < temps.stack0), refresh1 := decide (85000 < temps.stack1) } }
    let s := { s with ao := { s.ao with trip := s.ao.trip || trip } }
    if rises then s.count Num.thermalWarnings else s

end Sys2Proof.Machine
end

