-- ==== Sys2Proof/Machine/Rules.lean ====
section
/-! DEFINITION. Rule versions: the bundle, its preparation and its commit, and direct row operations (03 R73 to R80). -/
namespace Sys2Proof.Machine

/-! ### The bundle (03 R75) -/

def bundleRec (bs : List Byte) (i : Nat) : List Byte := (bs.drop (16 + 160 * i)).take 160

/-- A key or a mask as received: its reserved bits [3:0] are ignored, and read as 0 (02 R2, Table 3.3). -/
def cleanKey (k : Nat) : Nat := k / 16 % 2 ^ 508 * 16
/-- An action as received: its reserved bits [127:48], [31:29] and [17] are ignored, and read as 0 (02 R2, Table 3.5). -/
def cleanAction (a : Nat) : Nat := setBits (setBits (a % 2 ^ 48) 29 3 0) 17 1 0
/-- RULE_BUF with the reserved bits of its key, mask and action at 0. -/
def cleanRuleBuf (b : Nat) : Nat :=
  cleanKey (b % 2 ^ 512) + cleanKey (b / 2 ^ 512) * 2 ^ 512 + cleanAction (b / 2 ^ 1024) * 2 ^ 1024

/-- The record at position `i` of a bundle. -/
def bundleRecOf (r : List Byte) : BundleRec :=
  { row := leAt r 0 2, op := byteAt r 2, key := BitVec.ofNat 512 (cleanKey (leAt r 16 64))
    mask := BitVec.ofNat 512 (cleanKey (leAt r 80 64)), action := BitVec.ofNat 128 (cleanAction (leAt r 144 16)) }

/-- How many whole records a bundle holds. -/
def bundleCount (bs : List Byte) : Nat := (bs.length - 16) / 160
def bundleRecs (bs : List Byte) : List BundleRec := (List.range (bundleCount bs)).map fun i => bundleRecOf (bundleRec bs i)

def opAdd : Nat := 1
def opKeep : Nat := 2

/-! ### Preparation (03 R76) -/

def Rules.row_ (r : Rules) (n : Nat) : RuleRow := tget r.rows n {}
def Rules.setRow (r : Rules) (n : Nat) (x : RuleRow) : Rules := { r with rows := tset {} r.rows n x }

/-- Undo a preparation: staged ADD rows are freed, KEEP marks cleared, deferred ADDs cancelled. -/
def Rules.undo (r : Rules) : Rules :=
  { r with
    prep := .idle, deferred := []
    rows := (r.rows.filter fun e => e.2.slots != 0).map fun e => (e.1, { e.2 with stagedKeep := false }) }

/-- Write one ADD into its row as a staged row, or defer it while the row is a member of any slot. -/
def Rules.prepareAdd (r : Rules) (b : BundleRec) : Rules :=
  if (r.row_ b.row).slots = 0 then
    r.setRow b.row { key := b.key, mask := b.mask, action := b.action, valid := true, stagedAdd := true }
  else { r with deferred := r.deferred ++ [b] }

/-- Prepare one record: every KEEP row is marked, a free one too, so that no direct operation takes it (R76, R79). -/
def Rules.prepareRec (r : Rules) (b : BundleRec) : Rules :=
  if 32767 < b.row then r
  else if b.op = opAdd then r.prepareAdd b
  else if b.op = opKeep then r.setRow b.row { r.row_ b.row with stagedKeep := true }
  else r

/-- A successful BLOCK_CLOSE of the bundle: an earlier preparation is undone, and preparation begins. -/
def State.bundleClosed (s : State) : State := { s with rules := { s.rules.undo with prep := .preparing } }

/-- The end of preparation; deferred rows are an event (Table 3.11). -/
def State.prepared (s : State) (bundle : List Byte) : State :=
  let r := (bundleRecs bundle).foldl Rules.prepareRec s.rules
  let s := { s with rules := { r with prep := if r.deferred.isEmpty then .prepared else .deferred } }
  if r.deferred.isEmpty then s else s.versionEvent 32

/-- DEFERRED_ADD_WRITE: a row of a deferred ADD has become free, and the ADD is written (R76). -/
def execDeferredAddWrite (t : Nat) (row : Fin 32768) (s : State) : Result :=
  s.run t fun s =>
    let r := s.rules
    match r.deferred.find? fun b => b.row == row.val with
    | none => s
    | some b =>
      if (r.row_ row).slots ≠ 0 ∨ (r.row_ row).stagedAdd then s
      else
        let rest := r.deferred.erase b
        let r := { r.prepareAdd b with deferred := rest }
        { s with rules := { r with prep := if rest.isEmpty then .prepared else r.prep } }

/-! ### Commit (03 R77, R78) -/

def allZero (bs : List Byte) : Bool := bs.all (· == 0)

/-- Are the reserved fields of an action 0 (Table 3.5)? -/
def actionClean (a : Nat) : Bool := a == cleanAction a

/-- Has a bundle an unknown operation, another layout, or a reserved byte that is not 0 (code 4)? Bytes 6 to 15 of an action
are reserved whole; its reserved bits [31:29] and [17] share bytes with fields, and are ignored (02 R2). -/
def bundleUnknown (bs : List Byte) : Bool :=
  leAt bs 0 2 != 1 || !allZero ((bs.drop 2).take 2) || !allZero ((bs.drop 8).take 8)
    || (List.range (bundleCount bs)).any fun i =>
      let r := bundleRec bs i
      let op := byteAt r 2
      !(op == opAdd || op == opKeep) || !allZero ((r.drop 3).take 13)
        || (op == opKeep && !allZero (r.drop 16)) || (op == opAdd && !allZero (r.drop 150))

def hasDuplicate : List Nat → Bool
  | [] => false
  | a :: r => r.contains a || hasDuplicate r

/-- The group-inconsistent code of a COMMIT of group 0x10, 0 when it is valid (R77). `bundle`: written since the last commit
or discard; `dflt`: the staged default action. -/
def State.ruleCheck (s : State) (bundle : Option (List Byte)) (dflt : Nat) : Nat :=
  let cur := s.currentSlot
  let badRedir (a : Nat) : Bool := decide (33 < bits a 6 6)
  match bundle with
  | none => if !actionClean dflt then 4 else if badRedir dflt then 7 else 0
  | some bs =>
    let recs := bundleRecs bs
    if !s.rules.deferred.isEmpty then 1
    else if recs.any fun b => b.op == opKeep && !bit (s.rules.row_ b.row).slots.toNat cur.val then 2
    else if hasDuplicate (recs.map BundleRec.row) then 3
    else if bundleUnknown bs || !actionClean dflt then 4
    else if leAt bs 4 4 != bundleCount bs || bs.length != 16 + 160 * bundleCount bs || decide (32768 < leAt bs 4 4) then 5
    else if recs.any fun b => decide (32767 < b.row) then 6
    else if badRedir dflt || recs.any (fun b => b.op == opAdd && badRedir b.action.toNat) then 7
    else 0

/-- The lowest FREE slot that is not held for a timed commit. -/
def State.freeSlot (s : State) : Option (Fin 4) :=
  ([0, 1, 2, 3] : List (Fin 4)).find? fun v => (s.verSlot v).state == .free && s.rules.held != some v

/-- The commit instant (R78): the staged rows, or every row of the CURRENT slot when no bundle was written, become the new
slot, which becomes CURRENT; the old one drains. -/
def State.switchVersion (s : State) (v : Fin 4) (withBundle : Bool) (dflt : Nat) : State :=
  let old := s.currentSlot
  let m := BitVec.ofNat 4 (2 ^ v.val)
  let join (x : RuleRow) : RuleRow :=
    let takes := if withBundle then x.stagedAdd || x.stagedKeep else bit x.slots.toNat old.val
    { x with slots := if takes then x.slots ||| m else x.slots, stagedAdd := false, stagedKeep := false }
  let rows := (s.rules.rows.map fun e => (e.1, join e.2)).filter fun e => e.2.slots != 0
  let x := s.verSlot old
  let s := { s with rules := { s.rules with rows, prep := .idle, deferred := [], held := none } }
  let s := s.setVerSlot v { state := .current, serial := x.serial + 1, frames := 0, action := BitVec.ofNat 128 dflt }
  let s := s.setVerSlot old { s.verSlot old with state := .draining }
  (s.versionEvent 16).drainSlot old

/-! ### Direct row operations (03 R79, R80) -/

/-- RULE_STATE, and an event of RULE_STATUS. -/
def Rules.stateWord (r : Rules) : Nat := b1 r.busy * 2 ^ 31 + r.row.toNat
def State.ruleStatus (s : State) (flags : Nat) : State := s.raise 0x189 flags (capture [(4, s.rules.stateWord)])

/-- May a direct operation act on a row: free, or a member of the CURRENT slot alone, and not staged? -/
def State.rowOpen (s : State) (row : Nat) : Bool :=
  let x := s.rules.row_ row
  !x.stagedAdd && !x.stagedKeep && (x.slots == 0 || x.slots == BitVec.ofNat 4 (2 ^ s.currentSlot.val))

/-- Begin a direct operation: refused, dropped while BUSY, or carried out; slices in NAP or DOZE are woken (02 R56). -/
def State.ruleStart (s : State) (row : Nat) (f : State → State) : State :=
  if s.rules.busy then s.ruleStatus 4
  else if !s.rowOpen row then s.ruleStatus 2
  else
    let s := { s with rules := { s.rules with busy := true, row := BitVec.ofNat 15 row } }
    f ((List.range 4).foldl (fun s i => s.wake i wakeAccess) s)

/-- RULE_INVALIDATE: the row becomes free (Table 3.7). -/
def State.ruleInvalidate (s : State) (row : Fin 32768) : State :=
  s.ruleStart row fun s => { s with rules := s.rules.setRow row {} }

/-- RULE_INVALIDATE. -/
def execRuleInvalidate (t : Nat) (m : Master) (row : Fin 32768) (s : State) : Result :=
  s.runBy m t fun s => s.ruleInvalidate row

/-- RULE_WRITE_VALIDATE: the row takes key, mask and action of RULE_BUF; a free row joins the CURRENT slot only (R80). -/
def State.ruleWriteValidate (s : State) (row : Fin 32768) : State :=
  s.ruleStart row fun s =>
    let x := s.rules.row_ row
    let b := s.rules.buf.toNat
    let slots := if x.slots = 0 then BitVec.ofNat 4 (2 ^ s.currentSlot.val) else x.slots
    { s with rules := s.rules.setRow row {
        key := BitVec.ofNat 512 b, mask := BitVec.ofNat 512 (b / 2 ^ 512), action := BitVec.ofNat 128 (b / 2 ^ 1024)
        valid := true, slots } }

/-- RULE_WRITE_VALIDATE. -/
def execRuleWriteValidate (t : Nat) (m : Master) (row : Fin 32768) (s : State) : Result :=
  s.runBy m t fun s => s.ruleWriteValidate row

/-- RULE_REFRESH: the banks take the row from the master image, which clears its parity mask (R80). -/
def State.ruleRefresh (s : State) (row : Fin 32768) : State :=
  s.ruleStart row fun s =>
    { s with rules := s.rules.setRow row { s.rules.row_ row with masked := false } }

/-- RULE_REFRESH. -/
def execRuleRefresh (t : Nat) (m : Master) (row : Fin 32768) (s : State) : Result :=
  s.runBy m t fun s => s.ruleRefresh row

/-- RULE_OP_COMPLETE: the operation in progress completes, once no slice is left in NAP or DOZE (R80). -/
def execRuleOpComplete (t : Nat) (s : State) : Result :=
  s.run t fun s =>
    let asleep := (List.range 4).any fun i => (s.slice i).state == .nap || (s.slice i).state == .doze
    if s.rules.busy && !asleep then { s with rules.busy := false }.ruleStatus 1 else s

end Sys2Proof.Machine
end

