-- ==== Sys2Proof/Machine/Status.lean ====
section
/-! DEFINITION. What the status entries of the dictionary read: the values that blocks hold rather than the dictionary (02
Table 2.5; 03 Table 3.8; 04 to 17, entries marked Status). -/
namespace Sys2Proof.Machine

/-- A number as the bytes of an entry of `n` bytes, and an integer. -/
def nb (n v : Nat) : Option (List Byte) := some (leBytes n v)
def ib (n : Nat) (v : Int) : Option (List Byte) := some (leBytes n (twos n v))
def bb (v : Bool) : Option (List Byte) := some [byte (b1 v)]

/-! ### Commit groups and the dictionary's own counters (02 Tables 2.5, 2.6) -/

def State.cgroup (s : State) (g : Nat) : CommitGroup := tget s.dict.groups g {}
def State.setCgroup (s : State) (g : Nat) (x : CommitGroup) : State := { s with dict.groups := tset {} s.dict.groups g x }

def principalCode : Option Principal → Nat
  | none => 0
  | some .hostSecure => 1 | some .hostNonsecure => 2 | some .anchor => 3 | some .marshal => 4 | some .starter => 5

def groupCode : GroupState → Nat
  | .clean => 0 | .staged => 1 | .pending => 2

/-- 0x1200.gg (Table 2.6). -/
def CommitGroup.word (x : CommitGroup) : Nat :=
  x.commits.toNat * 2 ^ 16 + principalCode x.holder * 16 + groupCode x.state

/-- The dictionary's own entries. DESIGN CHOICE (log entry 91): the counters 0x1210.01 to .03, which have no counter number in
chapter 16, stand outside the snapshot banks of 02 R47. -/
def State.statusDict (s : State) (idx sub : Nat) : Option (List Byte) :=
  match idx with
  | 0x1009 => some (Machine.slice Config.serial 0 8)
  | 0x100A => some ownHash
  | 0x1010 => nb 4 (tget s.boot.versions 0 0)
  | 0x1011 => nb 4 (tget s.boot.versions 1 0)
  | 0x1012 => nb 4 (tget s.boot.versions 2 0)
  | 0x1013 => nb 4 (tget s.boot.versions 3 0)
  | 0x1200 => if sub = 0 then none else nb 4 (s.cgroup sub).word
  | 0x1201 => if sub = 0 then none else some (s.cgroup sub).ptime.bytes
  | 0x1202 => if sub = 0 then none else nb 1 (s.cgroup sub).pdomain
  | 0x1210 =>
    match sub with
    | 1 => nb 8 s.dict.completed.toNat
    | 2 => nb 8 s.dict.aborted.toNat
    | 3 => nb 8 s.dict.wakes.toNat
    | _ => none
  | _ => none

/-! ### Ports, rules, forwarding database (03, 04) -/

def slotCode : SlotState → Nat
  | .free => 0 | .current => 1 | .draining => 2
def prepCode : Prep → Nat
  | .idle => 0 | .preparing => 1 | .prepared => 2 | .deferred => 3

/-- 0x2300.02. -/
def State.slotStates (s : State) : Nat :=
  slotCode s.rules.slot0.state + slotCode s.rules.slot1.state * 4 + slotCode s.rules.slot2.state * 16
    + slotCode s.rules.slot3.state * 64

/-- One row of the row image (0x2303.00): bundle record form, byte 2 telling its membership and marks. -/
def RuleRow.image (x : RuleRow) (n : Nat) : List Byte :=
  leBytes 2 n ++ [byte (x.slots.toNat + flagIf (x.stagedAdd || x.stagedKeep) 4 + flagIf x.valid 5 + flagIf x.masked 6)]
    ++ List.replicate 13 0 ++ leBytes 64 x.key.toNat ++ leBytes 64 x.mask.toNat ++ leBytes 16 x.action.toNat

def State.statusRules (s : State) (sub : Nat) : Option (List Byte) :=
  match sub with
  | 1 => nb 1 s.currentSlot.val
  | 2 => nb 1 s.slotStates
  | 3 => nb 4 s.serial
  | 4 => nb 4 s.rules.slot0.frames.toNat
  | 5 => nb 4 s.rules.slot1.frames.toNat
  | 6 => nb 4 s.rules.slot2.frames.toNat
  | 7 => nb 4 s.rules.slot3.frames.toNat
  | 8 => nb 1 (prepCode s.rules.prep)
  | _ => none

def State.statusFdb (s : State) (idx sub : Nat) : Option (List Byte) :=
  let used := s.fdb.entries.filter fun e => FdbE.valid e.2
  match idx, sub with
  | 0x2400, 6 => nb 4 used.length
  | 0x2400, 7 => nb 2 (used.filter fun e => decide (fdbCam ≤ e.1)).length
  | 0x2400, 8 => nb 2 s.fdb.queueHigh.toNat
  | 0x2440, 5 => nb 4 s.fdb.passes.toNat
  | _, _ => none

def State.status2 (s : State) (idx sub : Nat) : Option (List Byte) :=
  if 0x2040 ≤ idx && idx < 0x2060 then
    let p := s.port (idx - 0x2040)
    match sub with
    | 1 => nb 1 (linkCode p.link)
    | 2 => nb 4 p.stagingHigh.toNat
    | _ => none
  else if idx = 0x2300 then s.statusRules sub
  else s.statusFdb idx sub

/-! ### Flow table and translation (05, 06) -/

def State.status3 (s : State) (idx sub : Nat) : Option (List Byte) :=
  match idx, sub with
  | 0x3000, 3 => nb 4 s.flow.inUse
  | 0x3000, 4 => nb 2 s.flow.patHigh.toNat
  | 0x3000, 5 => nb 2 s.flow.flightHigh.toNat
  | 0x3003, 2 => nb 4 s.flow.passes.toNat
  | 0x3003, 3 => nb 4 s.flow.notices.length
  | 0x3004, 1 => nb 1 s.flow.threshold.toNat
  | 0x3004, 2 => nb 4 (s.flow.headCache.map fun e => e.2.length).sum
  | 0x3004, 3 => nb 4 (s.flow.tailCache.map fun e => (e.2.filter CacheLine.dirty).length).sum
  | 0x3005, 1 => nb 2 s.flow.exceptions.length
  | 0x3112, 2 => nb 4 s.flow.bindings.length
  | 0x3112, 3 => nb 4 s.flow.owners.length
  | 0x3112, 5 => some (leBytes 64 (s.binding (s.num 0x3112 4)).toNat)
  | _, _ => none

/-! ### Buffer, egress, gates, streams, nodes (07 to 09) -/

def State.status5 (s : State) (idx sub : Nat) : Option (List Byte) :=
  match idx, sub with
  | 0x5000, 1 => nb 4 s.buf.cells
  | 0x5000, 2 => nb 2 (Runs.count s.buf.free)
  | 0x5000, 3 => nb 2 s.buf.partial_.length
  | 0x5000, 4 => nb 4 s.buf.size
  | 0x5000, 5 => nb 4 s.buf.u
  | 0x5000, 6 => nb 1 s.buf.a.toNat
  | 0x5000, 7 => nb 4 s.buf.descriptors
  | 0x5000, 8 => nb 4 s.buf.cellsHigh.toNat
  | 0x5004, 0 =>
    let c := s.charge (s.num 0x5003 0)
    some (leBytes 4 c.q ++ leBytes 4 c.z ++ leBytes 4 c.y)
  | 0x5100, n => if 2 ≤ n && n ≤ 5 then nb 2 (s.finish (n - 2)).high.toNat else none
  | _, _ => none

def State.statusGates (s : State) (p sub : Nat) : Option (List Byte) :=
  let e := s.egr p
  match sub with
  | 10 => bb e.waiting.isSome
  | 11 => some (ptimeOfNs (match e.waiting with | some (_, x) => x | none => 0)).bytes
  | 12 => nb 8 e.oper.cycle
  | 13 => some (ptimeOfNs e.oper.base).bytes
  | 14 => some e.oper.list
  | 15 => nb 1 (preemptionCode e.preemption)
  | _ => none

/-- 0x6004.00: copies and bytes queued, and the deficit, of the selected queue. -/
def State.queueStatus (s : State) : List Byte :=
  let q := s.queue (s.num 0x6003 0)
  let bytes := (q.fifo.map fun c => match s.copy c with | some k => k.len | none => 0).sum
  leBytes 4 q.fifo.length ++ leBytes 4 bytes ++ leBytes 4 (twos 4 q.deficit)

def State.status6 (s : State) (idx sub : Nat) : Option (List Byte) :=
  if 0x6200 ≤ idx && idx < 0x6220 then s.statusGates (idx - 0x6200) sub
  else if idx = 0x6004 then some s.queueStatus
  else if idx = 0x6400 && sub = 3 then
    nb 4 ((List.range 4).map fun i => flagIf (s.slice i).held i).sum
  else if idx = 0x6500 || idx = 0x6501 then
    let c := s.clock (idx - 0x6500)
    match sub with
    | 7 => bb c.synced
    | 8 => some (Machine.slice c.grandmaster 0 8)
    | 9 => ib 8 c.offset
    | 10 => nb 4 c.steps.toNat
    | _ => none
  else if 0x6600 ≤ idx && idx < 0x6620 && sub = 4 then nb 4 (s.port (idx - 0x6600)).linkDelay.toNat
  else none

/-- 0x7002.03: history, last number, TAKE_ANY, µs since the latest restart. -/
def State.recoveryBytes (s : State) (h : Nat) : List Byte :=
  let r := s.recoveryOf h
  let us := match r.at_ with
    | some a => min (2 ^ 32 - 1) ((s.now - a) / usPs)
    | none => 0
  leBytes 8 r.hist.toNat ++ leBytes 2 r.last.toNat ++ [byte (b1 r.takeAny), 0] ++ leBytes 4 us

/-- A node-table entry (09 Table 9.5). -/
def Node.bytes (n : Node) : List Byte :=
  beBytes 6 n.mac ++ [byte (b1 n.remote + 2 * b1 n.proxied), 0] ++ leBytes 2 n.txSeq.toNat ++ leBytes 2 n.delivery.last.toNat
    ++ [byte (b1 n.delivery.takeAny + 2 * b1 n.lanA + 4 * b1 n.lanB + 8 * b1 n.fwdA.takeAny + 16 * b1 n.fwdB.takeAny), 0, 0, 0]
    ++ leBytes 8 n.delivery.hist.toNat ++ leBytes 2 n.fwdA.last.toNat ++ leBytes 2 n.fwdB.last.toNat ++ [0, 0, 0, 0]
    ++ leBytes 8 n.fwdA.hist.toNat ++ leBytes 8 n.fwdB.hist.toNat ++ leBytes 4 n.seen ++ List.replicate 12 0

def State.status7 (s : State) (idx sub : Nat) : Option (List Byte) :=
  match idx, sub with
  | 0x7001, 3 => nb 2 s.red.nodes.length
  | 0x7002, 2 => nb 2 (s.generator (s.num 0x7002 1)).toNat
  | 0x7002, 3 => some (s.recoveryBytes (s.num 0x7002 1))
  | 0x7003, 2 =>
    match tfind s.red.nodes (s.num 0x7003 1) with
    | some n => some n.bytes
    | none => some (List.replicate 64 0)
  | _, _ => none

/-! ### Host, processors, pairing, domain (10 to 13) -/

def State.status8 (s : State) (idx sub : Nat) : Option (List Byte) :=
  let h := s.host
  match idx, sub with
  | 0x8000, 1 => nb 1 (protoCode h.proto)
  | 0x8000, 2 => nb 1 h.speed.toNat
  | 0x8000, 3 => nb 1 h.width.toNat
  | 0x8000, 4 => bb h.cacheEn
  | 0x8000, 5 => bb h.memEn
  | 0x8000, 6 => nb 1 (if s.hostUp then 2 else 0)
  | 0x8000, 7 => nb 4 h.resets.toNat
  | _, _ => none

def State.status9 (s : State) (idx sub : Nat) : Option (List Byte) :=
  if 0x9100 ≤ idx && idx ≤ 0x9102 then
    let g := s.group (idx - 0x9100)
    match sub with
    | 1 => nb 1 g.word
    | 4 => nb 4 g.expiries.toNat
    | 5 => nb 4 g.faults.toNat
    | _ => none
  else if idx = 0x9200 && sub = 3 then nb 1 s.proc.program
  else none

def State.statusA (s : State) (idx sub : Nat) : Option (List Byte) :=
  match idx, sub with
  | 0xA001, 1 => nb 1 (pairRoleCode s)
  | 0xA001, 2 => nb 1 (syncCode s.pair.sync)
  | 0xA001, 3 => nb 4 s.pair.epoch.toNat
  | 0xA001, 4 => nb 8 s.leaseLeft
  | 0xA001, 5 => nb 4 (replayBytes s.pair.replay)
  | 0xA001, 6 => nb 4 s.pair.bulkCursor.toNat
  | 0xA001, 7 => nb 1 s.pair.laneUp.toNat
  | 0xA001, 8 => bb s.pair.loss
  | _, _ => none

/-- One entry of the roster state (13 R353). -/
def RosterState.bytes (r : RosterState) : List Byte :=
  [byte r.presence, byte r.shownRole, byte r.shownSync, byte (b1 r.withdraw + 2 * b1 r.released)]
    ++ leBytes 4 r.shownEpoch ++ leBytes 4 r.seen ++ [0, 0, 0, 0]

/-- One entry of the stranger table (13 R354). -/
def Stranger.bytes (x : Stranger) : List Byte :=
  Machine.slice x.id 0 48 ++ [byte x.port.val, 1, 0, 0] ++ leBytes 4 x.first ++ leBytes 4 x.last ++ [0, 0, 0, 0]

def State.strangerBytes (s : State) (i : Nat) : List Byte :=
  match tfind s.dom.strangers i with
  | some x => x.bytes
  | none => List.replicate 64 0

def State.statusB (s : State) (idx sub : Nat) : Option (List Byte) :=
  match idx, sub with
  | 0xB000, 4 => nb 1 s.node
  | 0xB000, 5 => nb 1 s.domainState
  | 0xB000, 6 => nb 1 s.dom.anchor.toNat
  | 0xB000, 7 => nb 4 s.dom.anchorEpoch.toNat
  | 0xB000, 11 => bb s.dom.safeToPull
  | 0xB000, 12 => ib 8 s.dom.offset
  | 0xB101, 0 => some ((List.range 64).map fun n => (s.live n).bytes).flatten
  | 0xB102, 0 => some ((List.range 16).map s.strangerBytes).flatten
  | 0xB200, 3 => some s.dom.relayResponse
  | 0xB200, 4 => some ((List.range 64).map fun n => leBytes 4 (tget s.dom.relayResults n 0)).flatten
  | _, _ => none

/-! ### Power, boot, attestation, split log, panel (14 to 17) -/

def State.statusC (s : State) (idx sub : Nat) : Option (List Byte) :=
  if 0xC100 ≤ idx && idx ≤ 0xC103 then
    let x := s.slice (idx - 0xC100)
    match sub with
    | 3 => nb 1 (sliceCode x.state)
    | 4 => nb 1 x.step.toNat
    | _ => none
  else
    match idx, sub with
    | 0xC000, 1 => nb 1 (devCode s.pow.state)
    | 0xC000, 3 => nb 2 s.pow.transition
    | 0xC000, 4 => nb 1 s.pow.outcome
    | 0xC000, 8 => nb 1 s.pow.wakeSource
    | 0xC201, 1 => nb 4 s.pow.held.toNat
    | 0xC201, 2 => nb 2 s.pow.millivolts
    | 0xC201, 3 => ib 4 s.pow.margin
    | 0xC201, 4 => some ((List.range 4).map fun i => leBytes 2 (fusedMillivolts i)).flatten
    | 0xC201, 5 => nb 1 s.pow.avs
    | _, _ => none

def bootCode : BootState → Nat
  | .booting => 0 | .complete => 1 | .recovery => 2 | .failed => 3

def State.statusD (s : State) (idx sub : Nat) : Option (List Byte) :=
  match idx, sub with
  | 0xD000, 1 => nb 1 (bootCode s.boot.state)
  | 0xD000, 3 => nb 2 s.boot.reason.toNat
  | 0xD000, 4 => nb 1 s.boot.set.toNat
  | 0xD000, 5 => nb 2 s.nv.leaf
  | 0xD000, 6 => nb 2 s.ao.warmResets.toNat
  | 0xD000, 7 => some (Machine.slice s.boot.states 0 8)
  | 0xD000, 8 => some s.boot.digestBytes
  | 0xD000, 9 => some (leBytes 4 s.boot.skipped.toNat ++ leBytes 4 s.boot.firstSkip.toNat ++ leBytes 4 s.boot.skipCode.toNat)
  | 0xD020, 2 => nb 1 s.boot.update.toNat
  | 0xD100, 1 => some (Machine.slice s.nv.ownerHash 0 32)
  | 0xD100, 2 => bb s.nv.coSign
  | 0xD100, 3 => nb 1 s.nv.galelekSv
  | 0xD100, 4 => nb 1 s.nv.ownerSv
  | 0xD100, 5 => some (Machine.slice Config.rootHash 0 32)
  | 0xD100, 6 => some (Machine.slice Config.identityKey 0 60)
  | 0xD200, 2 => nb 1 s.boot.hostSlot.code
  | 0xD200, 3 => nb 1 s.boot.anchorSlot.code
  | 0xD200, 4 => nb 2 s.leavesLeft
  | 0xD200, 5 => nb 1 (identityCode s.ao.identity)
  | 0xD201, 0 => some s.boot.hostSlot.report
  | 0xD202, 0 => some s.boot.anchorSlot.report
  | _, _ => none

def State.statusF (s : State) (idx sub : Nat) : Option (List Byte) :=
  match idx, sub with
  | 0xE200, 1 => nb 2 s.split.log.length
  | 0xF000, 1 => ib 4 s.panel.die
  | 0xF000, 2 => ib 4 s.panel.stack0
  | 0xF000, 3 => ib 4 s.panel.stack1
  | 0xF000, 4 => ib 4 s.panel.dieHigh
  | 0xF000, 6 => bb s.panel.therm
  | 0xF000, 7 => bb s.ao.trip
  | 0xF100, 1 => nb 4 (s.panel.present.toNat &&& s.num 0xF100 8)
  | 0xF100, 2 => nb 4 s.panel.interrupts.toNat
  | 0xF100, 5 => nb 1 s.panel.inputs.toNat
  | 0xF100, 7 => bb s.panel.identifyEnd.isSome
  | _, _ => none

/-- What a status entry reads; none for an entry whose value the dictionary itself holds. -/
def State.status (s : State) (idx sub : Nat) : Option (List Byte) :=
  match idx / 4096 with
  | 1 => s.statusDict idx sub
  | 2 => s.status2 idx sub
  | 3 => s.status3 idx sub
  | 5 => s.status5 idx sub
  | 6 => s.status6 idx sub
  | 7 => s.status7 idx sub
  | 8 => s.status8 idx sub
  | 9 => s.status9 idx sub
  | 10 => s.statusA idx sub
  | 11 => s.statusB idx sub
  | 12 => s.statusC idx sub
  | 13 => s.statusD idx sub
  | 14 => s.statusF idx sub
  | 15 => s.statusF idx sub
  | _ => none

/-! ### Values and blocks as READ, READ_STAGED and the block reads return them (02 R35) -/

/-- The value of an entry, active or staging. -/
def State.value (s : State) (staged : Bool) (r : Row) (idx sub : Nat) : List Byte :=
  match s.status idx sub with
  | some bs => bs
  | none =>
    let n := match r.ty with
      | .block _ _ =>
        if staged && (tfind s.dict.staged (entryKey idx sub)).isSome then valueLen s.dict.staged idx sub
        else valueLen s.dict.vals idx sub
      | t => t.size
    readAll (if staged then s.staging else s.active) idx sub n

/-- The length of a block, and `n` of its bytes from `off`. -/
def State.blockLen (s : State) (staged : Bool) (r : Row) (idx sub : Nat) : Nat :=
  if idx = 0x2303 then 5242880
  else if 0x4000 ≤ idx ∧ idx < 0x5000 ∧ sub = 3 then
    let d := s.num idx 1
    if bit d 40 then 2 * 2 ^ bits d 32 5 else 0
  else match s.status idx sub with
    | some bs => bs.length
    | none =>
      if staged && (tfind s.dict.staged (entryKey idx sub)).isSome then valueLen s.dict.staged idx sub
      else match tfind s.dict.vals (entryKey idx sub) with
        | some bs => bs.length
        | none => dfltLen r idx

/-- Byte `i` of the row image. -/
def State.rowImageByte (s : State) (i : Nat) : Byte :=
  byte (byteAt ((s.rules.row_ (i / 160)).image (i / 160)) (i % 160))

def State.blockBytes (s : State) (staged : Bool) (r : Row) (idx sub off n : Nat) : List Byte :=
  let n := min n (s.blockLen staged r idx sub - off)
  if idx = 0x2303 then (List.range n).map fun i => s.rowImageByte (off + i)
  else match s.status idx sub with
    | some bs => (bs.drop off).take n
    | none =>
      let rd := if staged then s.staging else s.active
      (List.range n).map fun i => byte (rd idx sub (off + i))

end Sys2Proof.Machine
end

