-- ==== Sys2Proof/Machine/Checks.lean ====
section
/-! DEFINITION. What a value may be: the range of a WRITE, the contents of a block, and the validation that a COMMIT makes of
a group's staging copy (02 R20, R32; 03 R59; 04 R98; 05 R113; 06 R146, R148, R151; 07 R183, R198; 08 R206, R214; 09 R239,
R249; 12 R336; 13 R352; 14 R371, R384; 16 R419). -/
namespace Sys2Proof.Machine

/-! ### Values a WRITE may carry (02 R20, Table 2.1) -/

/-- The integer that bytes of a type stand for. -/
def Ty.int (ty : Ty) (bs : List Byte) : Int :=
  match ty with
  | .i32 => signed 4 (leVal bs)
  | .i64 => signed 8 (leVal bs)
  | _ => leVal bs

/-- The out-of-range abort of a number, 0 when it is allowed. -/
def Row.rangeCode (r : Row) (v : Int) : Nat :=
  if r.zeroToo && v == 0 || r.ffToo && v == 0xFF then 0
  else if r.hi < v then 0x08300003
  else if v < r.lo then 0x08300004
  else if v % (r.step : Int) ≠ 0 then 0x08300005
  else 0

/-- The abort of a value by its type and its entry's range. -/
def Row.valueCode (r : Row) (bs : List Byte) : Nat :=
  match r.ty with
  | .bool => if leVal bs ≤ 1 then 0 else 0x08300005
  | .enum vs => if vs.contains (leVal bs) then 0 else 0x08300005
  | .ptime => if leAt bs 6 4 < secNs then 0 else 0x08300005
  | .octet _ => 0
  | .block _ _ => 0
  | _ => r.rangeCode (r.ty.int bs)

/-- The largest security version that a write may blow: no running image of the party may have a lower one (15 R399). -/
def State.versionRange (s : State) (owner : Bool) (v : Nat) : Nat :=
  let now := if owner then s.nv.ownerSv else s.nv.galelekSv
  let places := if owner then [4, 5] else [0, 1, 2, 3]
  if v < now then 0x08300004
  else if places.any fun i => match tfind s.boot.secvers i with | some n => decide (n < v) | none => false then 0x08300003
  else 0

/-- The abort of a value that a chapter states beside type and range, 0 when there is none. -/
def State.entryCode (s : State) (idx sub : Nat) (bs : List Byte) : Nat :=
  let v := leVal bs
  match idx, sub with
  | 0x6500, 2 => if v = s.num 0x6501 2 then 0x08300006 else 0
  | 0x6501, 2 => if v = s.num 0x6500 2 then 0x08300006 else 0
  | 0xB200, 1 => if 32 ≤ v ∧ v ≤ 61 then 0x08300005 else 0
  | 0xD100, 3 => s.versionRange false v
  | 0xD100, 4 => s.versionRange true v
  | 0xD100, 7 => if v = 0x4445434D then 0 else 0x08300005
  | 0xF000, 4 => if v = 0 then 0 else 0x08300003
  | _, _ => 0

/-- Item 10 of R42 for a WRITE. -/
def State.writeCode (s : State) (r : Row) (idx sub : Nat) (bs : List Byte) : Nat :=
  let e := s.entryCode idx sub bs
  if idx = 0xF000 ∧ sub = 4 then e
  else if r.valueCode bs ≠ 0 then r.valueCode bs
  else e

/-! ### Fields of blocks -/

/-- The values of `n` records of `size` bytes of a block. -/
def recordsOf (r : Reader) (idx sub size n : Nat) : List Nat :=
  (List.range n).map fun i => rdField r idx sub (size * i) size

/-- The first condition of a numbered list that holds, 0 when none does. -/
def codeOf (l : List Bool) : Nat :=
  match findIdx id l with
  | some i => i + 1
  | none => 0

/-- Do two of the ranges given, as first and length, overlap? -/
def anyOverlap : List (Nat × Nat) → Bool
  | [] => false
  | a :: l => (l.any fun b => decide (a.1 < b.1 + b.2) && decide (b.1 < a.1 + a.2)) || anyOverlap l

/-! ### Contents checked at BLOCK_CLOSE -/

/-- Has a meter profile TYPE 3 or a reserved bit set (Table 6.7)? -/
def profileBad (w : Nat) : Bool := bits w 114 2 == 3 || bits w 121 135 != 0

/-- The abort of a block's contents, 0 when it may be stored: quanta (08 R207) and meter profiles (06 R159). -/
def blockCode (idx : Nat) (bs : List Byte) : Nat :=
  match idx with
  | 0x6002 =>
    if (List.range 65536).any fun q =>
        let w := leAt bs (4 * q) 4
        decide (2 ^ 21 ≤ w) || decide (w < 64) || decide (1048576 < w) then 0x08300003 else 0
  | 0x3200 =>
    if (List.range 4096).any fun m => profileBad (leAt bs (32 * m) 32) then 0x08300005 else 0
  | _ => 0

/-- The bits of each record of a block that are not reserved, with the record's size, where the block's commit or close does
not refuse reserved bits (00 R2): VLAN table, members, buckets. -/
def blockKeep (idx sub : Nat) : Option (Nat × Nat) :=
  if idx = 0x2200 then some (8, 2 ^ 42 - 1)
  else if 0x4000 ≤ idx ∧ idx < 0x5000 ∧ sub = 2 then some (16, 2 ^ 72 - 1 - 12)
  else if 0x4000 ≤ idx ∧ idx < 0x5000 ∧ sub = 3 then some (2, 0x80FF)
  else none

/-- The bytes as they are stored: reserved bits 0. -/
def keptBytes (r : Row) (idx sub : Nat) (bs : List Byte) : List Byte :=
  match r.ty with
  | .block _ _ =>
    match blockKeep idx sub with
    | some (size, keep) =>
      ((List.range (bs.length / size)).map fun i => leBytes size (leAt bs (size * i) size &&& keep)).flatten
    | none => bs
  | .octet _ => if idx = 0x3500 then splice bs 38 [0, 0] else bs
  | t => leBytes t.size (leVal bs &&& (if r.keep = 0xFFFFFFFFFFFFFFFF then 2 ^ (8 * t.size) - 1 else r.keep))

/-! ### Group 0x20+s: the port layout of a slice (03 R59, 14 R371) -/

/-- Is the FEC value allowed for a mode (Table 3.1)? -/
def fecOk (mode fec : Nat) : Bool :=
  match mode with
  | 5 => true
  | 6 => decide (fec ≤ 2)
  | _ => fec == 0

def layoutCode (r : Reader) (sl : Nat) : Nat :=
  let mode (p : Nat) := r (0x2000 + p) 1 0
  let lanes := (List.range 8).map (8 * sl + ·)
  let enabled := lanes.filter fun p => mode p != 0
  let off := r (0xC100 + sl) 1 0 == 3
  codeOf [
    anyOverlap (enabled.map fun p => (p, modeLanes (mode p))),
    enabled.any fun p => p % modeLanes (mode p) != 0,
    lanes.any fun p => !fecOk (mode p) (r (0x2000 + p) 3 0),
    off && (sl == 0 || !enabled.isEmpty)]

/-! ### Groups 0x12 to 0x15: VLANs, forwarding (03, 04) -/

def vlanCode (r : Reader) : Nat :=
  codeOf [rdField r 0x2200 0 0 8 != 0 || rdField r 0x2200 0 (8 * 4095) 8 != 0]

def unknownCode (r : Reader) : Nat :=
  let bad (b : Nat) : Bool := bits b 6 2 != 0 || bits b 0 2 == 3 || bits b 2 2 == 3 || bits b 4 2 == 3
  codeOf [r 0x2401 0 0 != 0 || r 0x2401 0 4095 != 0, (List.range 4096).any fun v => bad (r 0x2401 0 v)]

def ageCode (r : Reader) : Nat :=
  let tick := rdField r 0x2400 3 0 8
  codeOf [decide (4095 < rdField r 0x2400 4 0 2 + (256000000 + tick - 1) / tick)]

def State.shadowCode (s : State) (r : Reader) : Nat :=
  codeOf [
    r 0x2440 1 0 != 0 && !(s.host.proto == .down) && !s.host.cacheEn,
    rdField r 0x2440 2 0 8 % 4096 != 0]

/-! ### Groups 0x30 to 0x33: flow policies, actions, balancing, translation (05, 06) -/

def policyCode (r : Reader) : Nat :=
  let l := (recordsOf r 0x3001 0 16 1024).map fun w => BitVec.ofNat 128 w
  codeOf [
    (l.take 1).any fun e => Pol.ktype e != 0,
    l.any fun e => decide (3 < Pol.ktype e) || Pol.miss e == 3 || Pol.pend e == 3 || Pol.fail e == 3
      || decide (4 < Pol.initVerdict e),
    l.any fun e => bits e.toNat 80 48 != 0 || bits e.toNat 46 2 != 0,
    l.any fun e => decide (33 < Pol.initRedir e),
    l.any fun e => decide (1000000000 < Pol.idle e)]

def actionCode (r : Reader) : Nat :=
  let l := recordsOf r 0x3100 0 32 65536
  codeOf [
    (l.take 1).any fun w => w != 0,
    l.any fun w => decide (2 < bits w 83 3) || bits w 56 2 == 3,
    l.any fun w => bits w 105 151 != 0]

/-- A group descriptor: in use, first bucket, exponent of its size (Table 6.4). -/
def descRange (w : Nat) : Bool × Nat × Nat := (bit w 40, bits w 16 16, bits w 32 5)

def balanceCode (r : Reader) : Nat :=
  let l := (List.range 4096).map fun g => rdField r (0x4000 + g) 1 0 8
  let used := l.filter fun w => bit w 40
  codeOf [
    l.any fun w => bits w 16 16 % 2 ^ bits w 32 5 != 0,
    anyOverlap (used.map fun w => (bits w 16 16, 2 ^ bits w 32 5)),
    l.any fun w => decide (16 < bits w 32 5) || bits w 38 2 == 3 || bits w 41 23 != 0 || bit w 37 || bits w 0 16 != 0]

/-- Do the outside prefixes of two maps overlap? -/
def mapsOverlap (a b : NatMap) : Bool :=
  a.extZone == b.extZone && a.v6 == b.v6 &&
    (let n := min a.len b.len
     let w := a.width
     decide (n ≤ w) && a.ext / 2 ^ (w - n) % 2 ^ n == b.ext / 2 ^ (w - n) % 2 ^ n)

def anyPair {α : Type} (p : α → α → Bool) : List α → Bool
  | [] => false
  | a :: l => l.any (p a) || anyPair p l

/-- Reserved bits of a static map and of a pool (Table 6.5); the unused bytes of an IPv4 map are the model's to read. -/
def mapReserved (w : Nat) : Bool := bits w 48 80 != 0 || bits w 24 8 != 0 || bits w 2 14 != 0
def poolReserved (w : Nat) : Bool := bits w 1 47 != 0

/-- Do the address ranges of two pools of one zone overlap? -/
def poolsOverlap (a b : Pool) : Bool :=
  a.extZone == b.extZone && decide (a.addrBase < b.addrBase + b.count) && decide (b.addrBase < a.addrBase + a.count)
/-- Do the slot ranges of two pools overlap? -/
def slotsOverlap (a b : Pool) : Bool :=
  decide (a.slotBase < b.slotBase + b.count) && decide (b.slotBase < a.slotBase + a.count)

/-- Does any slot of a pool hold a block? -/
def State.poolHolds (s : State) (p : Pool) : Bool :=
  s.flow.owners.any fun e => decide (p.slotBase ≤ e.1 / 256) && decide (e.1 / 256 < p.slotBase + p.count)

def State.natCode (s : State) (r : Reader) : Nat :=
  let mw := recordsOf r 0x3110 0 48 256
  let pw := recordsOf r 0x3111 0 16 256
  let maps := (mw.map mapOf).filter NatMap.valid
  let all := pw.map poolOf
  let pools := all.filter Pool.valid
  let changed (i : Nat) : Bool :=
    let old := s.pool i
    let new := poolOf (pw.getD i 0)
    s.poolHolds old &&
      (old.addrBase != new.addrBase || old.count != new.count || old.slotBase != new.slotBase || old.valid != new.valid)
  codeOf [
    anyPair mapsOverlap maps || anyPair poolsOverlap pools,
    (all.any fun p => decide (65536 < p.slotBase + p.count)) || anyPair slotsOverlap pools,
    (mw.any fun w => mapReserved w || decide ((mapOf w).width < (mapOf w).len)) || pw.any poolReserved,
    (List.range 256).any changed]

/-! ### Groups 0x40, 0x41, 0x50: buffer, mirror sessions, queue sets (07, 08) -/

def bufferCode (r : Reader) : Nat :=
  let ports := recordsOf r 0x5001 0 8 34
  let queues := recordsOf r 0x5002 0 8 65536
  codeOf [
    decide (261120 < ((ports.map fun w => bits w 0 18).sum + (queues.map fun w => bits w 0 18).sum)),
    queues.any fun w => decide (bits w 20 19 < bits w 0 18),
    (ports.any fun w => bits w 18 46 != 0) || queues.any fun w => bits w 18 2 != 0 || bits w 39 25 != 0]

def mirrorCode (r : Reader) : Nat :=
  let ss := List.range 16
  let i (m : Nat) := 0x5300 + m
  let dest (m : Nat) := r (i m) 1 0
  let trunc (m : Nat) := rdField r (i m) 3 0 2
  let tpid (m : Nat) := rdField r (i m) 5 0 4 / 65536
  codeOf [
    ss.any fun m => decide (dest m < 34) && bit (rdField r (i m) 6 0 8) (dest m),
    ss.any fun m => trunc m != 0 && (decide (trunc m < 60) || decide (10236 < trunc m) || trunc m % 4 != 0),
    ss.any fun m => rdField r (i m) 5 0 4 != 0 && tpid m != 0x8100 && tpid m != 0x88A8,
    ss.any fun m => rdField r (i m) 4 0 4 == 0 || decide (16777216 < rdField r (i m) 4 0 4),
    ss.any fun m => decide (33 < dest m) && dest m != 0xFF]

/-- Owner of a queue under a queue set table: port × 8 + class. -/
def queueOwner (sets : List Nat) (q : Nat) : Option Nat :=
  findIdx (fun w => decide (bits w 0 16 ≤ q) && decide (q < bits w 0 16 + 2 ^ bits w 16 4)) sets

def State.queueSetCode (s : State) (r : Reader) : Nat :=
  let new := recordsOf r 0x6001 0 4 272
  let old := recordsOf s.active 0x6001 0 4 272
  codeOf [
    new.any fun w => bits w 0 16 % 2 ^ bits w 16 4 != 0,
    anyOverlap (new.map fun w => (bits w 0 16, 2 ^ bits w 16 4)),
    new.any fun w => decide (10 < bits w 16 4) || bits w 20 12 != 0,
    s.buf.charges.any fun e => decide (0 < e.2.q) && queueOwner old e.1 != queueOwner new e.1]

/-! ### Group 0x60+p: gates and preemption (08 R214) -/

def gateCode (g : GateSet) : Nat :=
  let entries := (List.range (g.list.length / 8)).map fun i => leAt g.list (8 * i) 8
  codeOf [
    (g.enabled && g.list.isEmpty) || g.list.length % 8 != 0,
    entries.any fun w => decide (bits w 0 30 < 64) || bits w 30 2 != 0 || bits w 40 8 != 0 || bits w 52 12 != 0,
    decide (g.cycle < 1000) || decide (secNs < g.cycle) || decide (g.cycle < (entries.map fun w => bits w 0 30).sum),
    decide (1 < g.domain),
    (g.preempt == 0 && bits g.classes 0 8 != 0) || decide (3 < g.fragment) || bits g.classes 8 24 != 0,
    (List.range 8).any fun c =>
      let n := leAt g.sizes (2 * c) 2
      n != 0 && (decide (n < 64) || decide (10240 < n))]

/-! ### Groups 0x80, 0x81, 0x90: streams, redundancy modes, pairing (09, 12) -/

def streamCode (r : Reader) : Nat :=
  let l := recordsOf r 0x7000 0 8 32768
  codeOf [
    l.any fun w => decide (bits w 8 7 < 2) || decide (64 < bits w 8 7),
    l.any fun w => decide (bits w 32 20 < 10) || decide (1000000 < bits w 32 20),
    l.any fun w => bits w 52 12 != 0 || bits w 15 17 != 0 || bits w 6 2 != 0 || bit w 2]

def State.redundancyCode (s : State) (r : Reader) : Nat :=
  let ps := List.range 32
  let mode (p : Nat) := r (0x7100 + p) 1 0
  let partner (p : Nat) := r (0x7100 + p) 2 0
  let has (p : Nat) : Bool := decide (partner p < 32)
  let pairOk (a b : Nat) : Bool := (a == 1 && b == 2) || (a == 2 && b == 1) || (a == 3 && b == 3)
  codeOf [
    ps.any fun p => has p && partner (partner p) != p,
    ps.any fun p => has p && !pairOk (mode p) (mode (partner p)),
    ps.any fun p => (mode p == 3 && partner p == 0xFF) || (!has p && partner p != 0xFF),
    ps.any fun p => has p && s.portRate p != s.portRate (partner p)]

def State.pairingCode (s : State) (r : Reader) : Nat :=
  let on := r 0xA000 1 0 == 1
  let partner := r 0xA000 2 0
  let lanes := rdField r 0xA000 3 0 4
  let busy := s.pairingOn && (s.pair.role == .active || s.pair.role == .standby || s.pair.role == .held)
  let changes := r 0xA000 1 0 != s.num 0xA000 1 || partner != s.num 0xA000 2 || lanes != s.num 0xA000 3
  codeOf [
    busy && changes,
    partner == 0 || decide (31 < partner) || partner == s.node,
    (on && lanes % 4 == 0) || decide (3 < lanes)]

/-! ### Group 0xA0: the roster (13 R352) -/

def State.rosterCode (s : State) (r : Reader) : Nat :=
  let ns := List.range 64
  let b (n i : Nat) := r 0xB100 0 (64 * n + i)
  let role (n : Nat) := b n 32
  let partner (n : Nat) := b n 33
  let hash (n : Nat) := rdField r 0xB100 0 (64 * n) 32
  let suits (n : Nat) : Bool :=
    if n = 0 then role n == 2
    else if n = 62 then role n == 3 || role n == 0
    else if n ≤ 31 then decide (role n ≤ 1)
    else role n == 0
  let named := ns.filter fun n => bit (b n 35) 0
  codeOf [
    ns.any fun n => !suits n,
    ns.any fun n => partner n != 0xFF &&
      (decide (63 < partner n) || role (partner n) != 1 || partner (partner n) != n),
    anyPair (fun n m => hash n == hash m) (ns.filter fun n => role n != 0),
    !(named == [0] || named == [62]),
    ns.any fun n => bits (b n 34) 1 7 != 0 || bits (b n 35) 1 7 != 0 || rdField r 0xB100 0 (64 * n + 36) 28 != 0,
    decide (63 < s.node) || role s.node == 0 || hash s.node != leVal ownHash]

/-! ### Groups 0xC0 and 0xE0: loops and samplers (14 R384, 16 R419) -/

def loopCode (r : Reader) : Nat :=
  let v (n : Nat) := rdField r 0xC200 n 0 2
  let u (n : Nat) := r 0xC200 n 0
  let badV (x : Nat) : Bool := decide (x < 650) || decide (850 < x) || x % 5 != 0
  let out (hi x : Nat) : Bool := decide (x < 1) || decide (hi < x)
  codeOf [
    badV (v 1) || badV (v 2) || decide (v 2 < v 1),
    decide (v 2 < fusedMillivolts 0),
    out 128 (u 4) || out 128 (u 5) || decide (u 5 < u 4) || out 63 (u 6) || out 63 (u 7) || decide (u 7 < u 6),
    decide (3 < u 3),
    decide (31 < u 9) || bits (rdField r 0xC200 8 0 8) 36 28 != 0]

def samplerCode (r : Reader) : Nat :=
  let ks := List.range 8
  let f (k sub n : Nat) := rdField r (0xE100 + k) sub 0 n
  let out (lo hi x : Nat) : Bool := decide (x < lo) || decide (hi < x)
  codeOf [
    ks.any fun k => out 1 16777216 (f k 5 4),
    ks.any fun k => decide (2 < f k 1 1) || (decide (33 < f k 4 1) && f k 4 1 != 0xFF),
    ks.any fun k => out 1 1000000 (f k 8 4) || out 1 4096 (f k 9 2),
    ks.any fun k => bits (f k 2 8) 34 30 != 0 || bits (f k 3 4) 8 24 != 0]

/-! ### All groups -/

/-- The detail code of the group-inconsistent abort of a COMMIT of group `g`, 0 when its staging copy is valid (R32). Group
0x10 has its own check, `ruleCheck`. -/
def State.groupCode (s : State) (g : Nat) : Nat :=
  let r := s.staging
  if 0x20 ≤ g ∧ g < 0x24 then layoutCode r (g - 0x20)
  else if 0x60 ≤ g ∧ g < 0x80 then gateCode (gateSetOf r (g - 0x60) (s.blockLen true { base := 0x6200, ty := .block 8192 false } (0x6200 + (g - 0x60)) 5))
  else match g with
    | 0x12 => vlanCode r
    | 0x13 => unknownCode r
    | 0x14 => ageCode r
    | 0x15 => s.shadowCode r
    | 0x30 => policyCode r
    | 0x31 => balanceCode r
    | 0x32 => actionCode r
    | 0x33 => s.natCode r
    | 0x40 => bufferCode r
    | 0x41 => mirrorCode r
    | 0x50 => s.queueSetCode r
    | 0x80 => streamCode r
    | 0x81 => s.redundancyCode r
    | 0x90 => s.pairingCode r
    | 0xA0 => s.rosterCode r
    | 0xC0 => loopCode r
    | 0xE0 => samplerCode r
    | _ => 0

end Sys2Proof.Machine
end

