-- ==== Sys2Proof/Machine/Commits.lean ====
section
/-! DEFINITION. What a commit does: the staging copy becomes the active set at one instant, and the owning block acts on it
(02 R32 to R34); what a discard does. -/
namespace Sys2Proof.Machine

/-! ### Staging copies (02 R31) -/

/-- The commit group of an entry given by its key. -/
def keyGroup (k : Nat) : Option Nat :=
  match rowOf (k / 256) (k % 256) with
  | some r => r.group (k / 256)
  | none => none

/-- The staging values of a group. -/
def State.stagedOf (s : State) (g : Nat) : Tab (List Byte) := s.dict.staged.filter fun e => keyGroup e.1 == some g

/-- The staging copy of a group equals its active set again. -/
def State.unstage (s : State) (g : Nat) : State :=
  { s with dict.staged := s.dict.staged.filter fun e => keyGroup e.1 != some g }

/-- The staging copy becomes the active set. -/
def State.takeStaged (s : State) (g : Nat) : State :=
  let vals := (s.stagedOf g).foldl (fun t (e : Nat × List Byte) => tput t e.1 e.2) s.dict.vals
  { s with dict.vals := vals }.unstage g

/-! ### Effects of single groups -/

/-- Frames in the staging buffer of a port are discarded and counted as reconfiguration flushes (03 R59). -/
def State.flushStaging (s : State) (p : Nat) : State :=
  let mine := s.buf.frames.filter fun e => e.2.port == p && e.2.stage == .staging && !e.2.refused
  mine.foldl (fun (s : State) e =>
    let s := s.count (Num.reconfigFlushes p)
    if e.2.endAt.isSome then s.dropFrame e.1 else s.setFrame e.1 { e.2 with refused := true }) s

/-- Group 0x20+s: changed ports are taken down and start link-up in the new mode; the slice follows its policy into OFF or out
of it (03 R59, R460; 14 R371, R377). `old`: the state before the commit. -/
def State.applyLayout (old : State) (sl : Nat) (s : State) : State :=
  let changed := ((List.range 8).map (8 * sl + ·)).filter fun p =>
    [1, 2, 3].any fun k => old.num (0x2000 + p) k != s.num (0x2000 + p) k
  let s := changed.foldl (fun (s : State) p => (s.flushStaging p).takeDown p) s
  let was := old.slicePolicy sl == 3
  let off := s.slicePolicy sl == 3
  let s := if off && !was then (if sl = 3 then s.stopPort recircPort else s).sliceOff sl else s
  let s := if !off && was && s.boot.state == .complete then (s.leaveOff sl).count (Num.wakes sl wakePolicy) else s
  -- a policy changed away from NAP or DOZE wakes the slice that is in that state (14 R372)
  let s := if (old.slicePolicy sl == 1 || old.slicePolicy sl == 2) && s.slicePolicy sl != old.slicePolicy sl && !off then
      s.wake sl wakePolicy else s
  let s := changed.foldl State.startTraining (s.raiseToFloor sl)
  s.raise (0x48 + sl) 1 [byte (changed.map fun p => 2 ^ (p % 8)).sum]

/-- Group 0x14: the age counter restarts at 0, and every AGE with it (04 R98). -/
def State.applyAging (s : State) : State :=
  { s with fdb := { s.fdb with
      tick := 0, tickAt := s.now, entries := s.fdb.entries.map fun (e : Nat × BitVec 128) => (e.1, FdbE.set e.2 65 12 0) } }

/-- Group 0x15: the shadow pass starts again (04 R105). -/
def State.applyShadow (s : State) : State := { s with fdb := { s.fdb with chunk := 0, diffs := [] } }

/-- Group 0x31: the buckets of a group whose range changes read invalid (06 R148). -/
def State.applyBalance (old s : State) : State :=
  let changed := below 4096 fun g =>
    let a := old.num (0x4000 + g) 1
    let b := s.num (0x4000 + g) 1
    bit a 40 != bit b 40 || bits a 16 21 != bits b 16 21
  { s with dict.vals := changed.foldl (fun t g => tdel t (entryKey (0x4000 + g) 3)) s.dict.vals }

/-- Split the charge of one queue afresh, with the ports' shares so far (07 R183). -/
def State.splitCharge (s : State) (sets : List Nat) (acc : Tab Nat × Nat × Tab Charge) (e : Nat × Charge) :
    Tab Nat × Nat × Tab Charge :=
  let (ports, u, out) := acc
  let p := match queueOwner sets e.1 with
    | some i => i / 8
    | none => 0
  let a := min e.2.q (s.queueReserve e.1)
  let pz := tget ports p 0
  let b := min (e.2.q - a) (s.portReserve p - pz)
  let y := e.2.q - a - b
  (tset 0 ports p (pz + b), u + y, tset {} out e.1 { q := e.2.q, z := b, y })

/-- Group 0x30: a frame that is in the flow stage stays under the policy table it entered under (05 R113). -/
def State.keepPolicies (old s : State) : State :=
  { s with buf.frames := s.buf.frames.map fun (e : Nat × Frame) =>
      if s.flow.entered.contains e.1 && e.2.policies.isNone then
        (e.1, { e.2 with policies := some ((tfind old.dict.vals (entryKey 0x3001 0)).getD []) })
      else e }

/-- Group 0x40: S is recomputed and every charge split afresh; U above S is a reserve shortfall (07 R183). -/
def State.applyBuffer (s : State) : State :=
  let sets := recordsOf s.active 0x6001 0 4 272
  let reserves := ((recordsOf s.active 0x5001 0 8 34).map fun w => bits w 0 18).sum
    + ((recordsOf s.active 0x5002 0 8 65536).map fun w => bits w 0 18).sum
  let (ports, u, charges) := s.buf.charges.foldl (s.splitCharge sets) ([], 0, [])
  let size := poolCells - reserves
  let s : State := { s with buf := { s.buf with portZ := ports, u, charges, size } }
  if size < u then
    { s with buf := { s.buf with shortfall := true, shortBy := BitVec.ofNat 32 (u - size) } }.raise 0x1A1 1
      (capture [(4, u - size)])
  else s.shortfallEnd

/-- Group 0x80: recovery functions whose MODE, ALG, HIST or TAKE_NO_SEQ changes are reset (09 R239). -/
def State.applyStreams (old s : State) : State :=
  let mask (w : Nat) : Nat := w &&& 0x7F1B
  let changed := below 32768 fun h => mask (old.blk 0x7000 0 (8 * h) 8) != mask (s.blk 0x7000 0 (8 * h) 8)
  changed.foldl State.resetRecovery s

/-- Group 0x81: a port whose mode or partner changes has its queues flushed (09 R249). -/
def State.applyRedundancy (old s : State) : State :=
  let changed := below 32 fun p => old.redMode p != s.redMode p || old.redPartner p != s.redPartner p
  changed.foldl State.stopPort s

/-- Group 0x90: pairing that turns on starts in DETACHED with the Sallar block just powered; a lane no longer enabled is not
up (12 R336). -/
def State.applyPairing (old s : State) : State :=
  if !old.pairingOn || !s.pairingOn then { s with pair := {} }
  else { s with pair.laneUp := s.pair.laneUp &&& BitVec.ofNat 2 (s.num 0xA000 3) }

/-- A dictionary request on the wire (13 Table 13.5). -/
def dictBody (op idx sub tag seg : Nat) (data : List Byte) : List Byte :=
  [byte op, 0] ++ beBytes 2 idx ++ [byte sub, 0] ++ beBytes 2 tag ++ beBytes 2 seg ++ beBytes 2 data.length ++ data

/-- The active anchor copies the roster to node 62: the block, then its commit (13 R347). -/
def State.copyRoster (s : State) : State :=
  if s.anchors && s.node != 62 && s.rosterRole 62 == 3 then
    let image := readAll s.active 0xB100 0 4096
    let send (s : State) (op idx sub : Nat) (data : List Byte) := s.pouvexSend 62 msgDictReq (dictBody op idx sub 0 0 data)
    let s := send s 0x20 0xB100 0 (beBytes 4 4096)
    let s := send s 0x21 0xB100 0 image
    let s := send s 0x22 0xB100 0 (beBytes 4 (crc32c image))
    send s 0x10 0 0xA0 []
  else s

/-- Group 0xA0: the live states follow the roster (13 R353), and node 62 receives it. -/
def State.applyRoster (old s : State) : State := (s.rosterCommitted old.rosterHash old.rosterRole).copyRoster

/-- Group 0xE0: offered counts restart and buckets start full (16 R419). -/
def State.applySamplers (s : State) : State :=
  (List.range 8).foldl (fun (s : State) k => s.setSampler k { tokens := s.num (samplerIdx k) 9, refillAt := s.now }) s

/-! ### Gates (08 R216) -/

/-- The set that the active values of group 0x60+p describe. -/
def State.adminSet (s : State) (r : Reader) (staged : Bool) (p : Nat) : GateSet :=
  gateSetOf r p (s.blockLen staged { base := 0x6200, ty := .block 8192 false } (0x6200 + p) 5)

/-- The change time C of a set accepted now: no earlier than `at_` and than the wake lead and 1,000 ns from now, ns of its
domain. -/
def State.changeAt (s : State) (g : GateSet) (at_ : Nat) : Nat :=
  let now := (s.domainPs g.domain + 999) / 1000
  changeTime g.base g.cycle (max at_ (now + s.num 0x6400 1 + 1000))

/-- A PTIME of domain `d` on the clock of domain `e`, with the offset between the clocks now, ns. -/
def State.onDomain (s : State) (d e ns : Nat) : Nat :=
  if d = e then ns else ((ns : Int) - s.domainNs d + s.domainNs e).toNat

/-! ### Commit, timed commit, discard (02 R32 to R34) -/

/-- The group is CLEAN with no holder. -/
def State.cleanGroup (s : State) (g : Nat) : State :=
  s.setCgroup g { s.cgroup g with state := .clean, holder := none, ptime := {}, pdomain := 0 }

/-- The bundle in the staging copy of group 0x10, if one has been written since the last commit or discard. -/
def State.stagedBundle (s : State) : Option (List Byte) := tfind s.dict.staged (entryKey 0x2301 0)
/-- The staged default action. -/
def State.stagedDefault (s : State) : Nat := rdField s.staging 0x2302 0 0 16

/-- What the owning block does at the commit instant; `old` is the state before it. -/
def State.groupEffect (old : State) (g : Nat) (s : State) : State :=
  if 0x20 ≤ g ∧ g < 0x24 then State.applyLayout old (g - 0x20) s
  else if 0x60 ≤ g ∧ g < 0x80 then
    let p := g - 0x60
    match (old.egr p).timed with
    | some (set, c) => ((s.setEgr p { s.egr p with timed := none }).loadGates p set c).keepForPlan
    | none =>
      let set := s.adminSet s.active false p
      (s.loadGates p set (s.changeAt set 0)).keepForPlan
  else match g with
    | 0x10 =>
      match (match old.rules.held with | some v => some v | none => old.freeSlot) with
      | some v => s.switchVersion v old.stagedBundle.isSome old.stagedDefault
      | none => s
    | 0x14 => s.applyAging
    | 0x15 => s.applyShadow
    | 0x30 => State.keepPolicies old s
    | 0x31 => State.applyBalance old s
    | 0x40 => s.applyBuffer
    | 0x80 => State.applyStreams old s
    | 0x81 => State.applyRedundancy old s
    | 0x90 => State.applyPairing old s
    | 0xA0 => State.applyRoster old s
    | 0xC0 => s.clampLoops
    | 0xE0 => s.applySamplers
    | _ => s

/-- The commit instant of a valid group: the staging copy becomes active, COMMITS advances, the block acts. -/
def State.commitNow (s : State) (g : Nat) : State :=
  let x := s.cgroup g
  let t := (s.takeStaged g).cleanGroup g
  let t := t.setCgroup g { t.cgroup g with commits := x.commits + 1 }
  State.groupEffect s g t

/-- Has the clock of a domain reached a PTIME? -/
def State.reachedTime (s : State) (d : Nat) (p : PTime) : Bool := decide (p.toNs ≤ s.domainNs d)

/-- A timed commit accepted: PENDING, or at once when its PTIME has passed (R33). -/
def State.commitTimed (s : State) (g d : Nat) (p : PTime) : State :=
  let s := if 0x60 ≤ g ∧ g < 0x80 then
      let set := s.adminSet s.staging true (g - 0x60)
      let c := s.changeAt set (s.onDomain d set.domain p.toNs)
      (s.setEgr (g - 0x60) { s.egr (g - 0x60) with timed := some (set, c) }).keepForPlan
    else if g = 0x10 then { s with rules.held := s.freeSlot }
    else s
  if s.reachedTime d p then s.commitNow g
  else s.setCgroup g { s.cgroup g with state := .pending, pdomain := d, ptime := p }

/-- DISCARD of a group: the active set over the staging copy, a pending commit cancelled, no holder (R34); group 0x10 undoes
its preparation (03 R76). -/
def State.discardGroup (s : State) (g : Nat) : State :=
  let s := (s.unstage g).cleanGroup g
  if g = 0x10 then { s with rules := { s.rules.undo with held := none } }
  else if 0x60 ≤ g ∧ g < 0x80 then s.setEgr (g - 0x60) { s.egr (g - 0x60) with timed := none }
  else s

end Sys2Proof.Machine
end

