-- ==== Sys2Proof/Machine/Dict.lean ====
section
/-! DEFINITION. The checks that the dictionary engine makes of a command, in the order in which their aborts rank (02 R19 to
R42, Table 2.4; 11 R291, R294; 15 R397, R400). -/
namespace Sys2Proof.Machine

/-! ### Abort codes (Table 2.4) -/

def abDenied (d : Nat) : Nat := 0x08100000 + d
def abLength (d : Nat) : Nat := 0x08200000 + d
def abRange (d : Nat) : Nat := 0x08300000 + d
def abRunning (d : Nat) : Nat := 0x08400000 + d
def abDark (d : Nat) : Nat := 0x08500000 + d
def abBusy (d : Nat) : Nat := 0x08600000 + d
def abGroup (d : Nat) : Nat := 0x08700000 + d
def abVersions : Nat := 0x08800000
def abBlock (d : Nat) : Nat := 0x08900000 + d
def abTimeout : Nat := 0x08A00000
def abOpcode : Nat := 0x08B00000
def abUnreachable : Nat := 0x08C00000

/-- The first abort that applies: `a`, or what comes after it. -/
def orElse_ (a : Nat) (b : Unit → Nat) : Nat :=
  match a with
  | 0 => b ()
  | n + 1 => n + 1

/-! ### Opcodes (Table 2.3) -/

/-- Does the opcode read an entry? -/
def DictOp.reads : DictOp → Bool
  | .read => true | .readStaged => true | .blockRead => true | .blockReadStaged => true | _ => false

/-- Does it act on a group? -/
def DictOp.onGroup : DictOp → Bool
  | .commit => true | .discard => true | _ => false

/-- Does it act on a BLOCK? -/
def DictOp.onBlock : DictOp → Bool
  | .blockOpen => true | .blockSeg => true | .blockClose => true
  | .blockRead => true | .blockCancel => true | .blockReadStaged => true | _ => false

/-- The code of an opcode, and the opcode of a code. -/
def DictOp.code : DictOp → Nat
  | .read => 1 | .write => 2 | .readStaged => 3 | .commit => 0x10 | .discard => 0x11
  | .blockOpen => 0x20 | .blockSeg => 0x21 | .blockClose => 0x22 | .blockRead => 0x23 | .blockCancel => 0x24
  | .blockReadStaged => 0x25 | .unknown n => n

def dictOpOf (n : Nat) : DictOp :=
  match n with
  | 1 => .read | 2 => .write | 3 => .readStaged | 0x10 => .commit | 0x11 => .discard
  | 0x20 => .blockOpen | 0x21 => .blockSeg | 0x22 => .blockClose | 0x23 => .blockRead | 0x24 => .blockCancel
  | 0x25 => .blockReadStaged | n => .unknown n

/-! ### Principals and access (R23 to R26) -/

/-- The principal of a source. -/
def principalOf : Source → Principal
  | .secure => .hostSecure | .nonsecure => .hostNonsecure | .pouvex _ => .anchor
  | .marshal => .marshal | .judge => .marshal | .starter => .starter

/-- Item 2 of R42: the path itself is refused. -/
def State.sourceCode (s : State) (src : Source) : Nat :=
  match src with
  | .pouvex n => if n = s.dom.anchor.toNat && n != 0xFF then 0 else abDenied 3
  | .secure => if s.num 0x1100 0 = 1 then abDenied 5 else 0
  | _ => 0

/-- The column of an access table that a principal reads: 0 host-secure, 1 host-nonsecure, 2 anchor (R24). -/
def Principal.column : Principal → Nat
  | .hostNonsecure => 1 | .anchor => 2 | _ => 0

/-- The rights that an access column gives: read and write. -/
def Acc.rights : Acc → Nat → Bool × Bool
  | .ro, _ => (true, false)
  | .rw, 1 => (true, false)
  | .rw, _ => (true, true)
  | .cmd, 1 => (false, false)
  | .cmd, _ => (false, true)
  | .rwHidden, 1 => (false, false)
  | .rwHidden, _ => (true, true)
  | .secureRw, 0 => (true, true)
  | .secureRw, _ => (false, false)
  | .secureR, 0 => (true, false)
  | .secureR, _ => (false, false)
  | .secureW, 0 => (false, true)
  | .secureW, _ => (false, false)
  | .anchorR, 2 => (true, false)
  | .anchorR, _ => (false, false)
  | .secureOwn, 0 => (true, true)
  | .secureOwn, _ => (true, false)

/-- Item 3: does the index exist on this device, and the sub-index (18 R455)? -/
def State.idxKnown (s : State) (idx : Nat) : Bool :=
  idxExists idx && !(decide (0xB100 ≤ idx) && decide (idx ≤ 0xB200) && !s.isAnchorRole)

def State.existsCode (s : State) (c : DictCommand) : Nat :=
  if c.op.onGroup then (if c.sub = 0 then abRange 2 else 0)
  else if !s.idxKnown c.idx then abRange 1
  else if (rowOf c.idx c.sub).isNone then abRange 2
  else 0

/-- Does a DISCARD carry the force bit (R34)? -/
def DictCommand.forced (c : DictCommand) : Bool := bit (byteAt c.data 0) 0

/-- Writes that a chapter refuses as not permitted beside the access columns (13 R347; 15 R390, R397, R400). -/
def State.entryDenied (s : State) (c : DictCommand) : Bool :=
  match c.idx, c.sub with
  | 0xD010, 0 => !(s.boot.state == .recovery)
  | 0xD011, 0 => !(s.boot.state == .recovery)
  | 0xD100, 1 => s.nv.ownerSet || s.nv.ownerBad
  | 0xD100, 2 => s.nv.coSign || s.nv.ownerBad || (!s.nv.ownerSet && c.data == [1])
  | 0xB103, 2 => s.domainRole != 3
  | _, _ => false

/-- Item 4 for a command on an entry. -/
def State.accessCode (s : State) (src : Source) (c : DictCommand) (r : Row) : Nat :=
  let p := principalOf src
  let starts := p == .starter && !s.bootDone
  if c.op.reads then
    if starts || (r.acc.rights p.column).1 then 0 else abDenied 1
  else if src == .judge then abDenied 2
  else if r.cls == .fixed && s.bootDone then abDenied 4
  else if starts then
    -- the identity record is read-only for every principal (00 R5)
    if (decide (0x1000 ≤ c.idx) && decide (c.idx ≤ 0x1018)) || s.entryDenied c then abDenied 2 else 0
  else if !(r.acc.rights p.column).2 || s.entryDenied c then abDenied 2
  else 0

/-- Item 4 for a command on a group (R34; 11 R294). -/
def groupDenied (src : Source) (c : DictCommand) : Nat :=
  if src == .judge || (c.op == .discard && c.forced && principalOf src == .hostNonsecure) then abDenied 2 else 0

/-! ### Lengths and opcodes (items 5, 6 and 7) -/

/-- Two points that the spec leaves open are DESIGN CHOICES (log entry 93): data sent with an opcode that takes none is ignored,
and a DISCARD of more than one data byte has the wrong length. -/
def State.lengthCode (r : Option Row) (c : DictCommand) : Nat :=
  let n := c.data.length
  if 4096 < n then abLength 1
  else match c.op, r with
    | .commit, _ => if n = 0 ∨ n = 11 then 0 else abLength 1
    | .discard, _ => if n ≤ 1 then 0 else abLength 1
    | _, none => 0
    | op, some r =>
      if op.onBlock != r.ty.isBlock then abLength 2
      else match op with
        | .write => if n = r.ty.size then 0 else abLength 1
        | .blockOpen => if n = 4 then 0 else abLength 1
        | .blockClose => if n = 4 then 0 else abLength 1
        | _ => 0

/-- The anchor writes nothing but a restart to the Marshal's command (11 R291). -/
def anchorGroupCode (src : Source) (c : DictCommand) : Nat :=
  if principalOf src == .anchor && c.idx == 0x9100 && c.sub == 2 && c.op == .write && c.data != [3] then abDenied 2 else 0

/-- Item 6: an entry whose server is not RUNNING (18 Table 18.3). It holds for 0x3500.02 and .03 too, against the last words of
06 R143 (log entry 95). -/
def State.darkCode (s : State) (r : Row) : Nat :=
  match r.server with
  | .marshal => if s.groupRuns marshalGroup then 0 else abDark 0x30
  | .timekeepers => if s.groupRuns timekeepersGroup then 0 else abDark 0x31
  | _ => 0

/-- Item 7: a HALT entry while the Judges run, and a warm reset of a device that holds a lease (15 R387). -/
def State.runningCode (s : State) (c : DictCommand) (r : Row) : Nat :=
  if c.op.reads || c.op == .blockCancel then 0
  else if r.cls == .halt && s.groupRuns judgesGroup then abRunning 0
  else if c.idx = 0xD000 ∧ c.sub = 2 ∧ c.data = [1] ∧ (s.pair.role = .active ∨ s.pair.role = .held) then abRunning 1
  else 0

/-! ### Groups and transfers (items 8 and 9) -/

def State.transferOf (s : State) (src : Source) : Option Transfer := s.dict.transfers.find? fun x => x.src == src
def State.dropTransfer (s : State) (src : Source) : State :=
  { s with dict.transfers := s.dict.transfers.filter fun x => x.src != src }

/-- A group that is PENDING, or that another principal holds (R31 to R33). -/
def State.groupBusy (s : State) (g : Nat) (p : Principal) : Nat :=
  let x := s.cgroup g
  match x.state with
  | .clean => 0
  | .pending => abBusy 2
  | .staged => if x.holder == some p then 0 else abBusy 3

def State.busyCode (s : State) (src : Source) (c : DictCommand) (r : Option Row) : Nat :=
  let p := principalOf src
  match c.op with
  | .commit => s.groupBusy c.sub p
  | .discard =>
    if c.forced || (s.cgroup c.sub).holder.isNone || (s.cgroup c.sub).holder == some p then 0 else abBusy 3
  | .blockCancel => 0
  | op =>
    if op.reads then 0
    else
      let held := match r.bind fun r => r.group c.idx with
        | some g => s.groupBusy g p
        | none => 0
      orElse_ held fun _ => if op == .blockOpen && (s.transferOf src).isSome then abBusy 4 else 0

/-- The length that a BLOCK_OPEN of an entry must carry, or may at most carry (R38). A length of 0 where no exact size is stated
opens a transfer that closes with no segment, of which R38 says nothing (DESIGN CHOICE, log entry 93). -/
def State.openOk (s : State) (r : Row) (idx sub n : Nat) : Bool :=
  match r.ty with
  | .block m exact =>
    if 0x4000 ≤ idx ∧ idx < 0x5000 ∧ sub = 3 then n == s.blockLen false r idx sub
    else if exact then n == m
    else decide (n ≤ m)
  | _ => false

/-- The length of segment `seg` of a transfer; 0 past its end. -/
def Transfer.segLen (x : Transfer) : Nat := min 4096 (x.total - 4096 * x.nextSeg)

def State.transferCode (s : State) (src : Source) (c : DictCommand) (r : Row) : Nat :=
  let mine := (s.transferOf src).filter fun x => x.idx == c.idx && x.sub == c.sub
  match c.op, mine with
  | .blockOpen, _ => if s.openOk r c.idx c.sub (leVal c.data) then 0 else abBlock 3
  | .blockSeg, none => abBlock 4
  | .blockClose, none => abBlock 4
  | .blockCancel, none => abBlock 4
  | .blockSeg, some x =>
    if c.seg ≠ x.nextSeg then abBlock 1
    else if x.segLen = 0 ∨ c.data.length ≠ x.segLen then abBlock 3
    else 0
  | .blockClose, some x =>
    if x.data.length ≠ x.total then abBlock 3
    else if leVal c.data ≠ crc32c x.data then abBlock 2
    else 0
  | _, _ => 0

/-! ### Values and groups (items 10 to 12) -/

/-- The PTIME of a timed COMMIT, bytes 1 to 10 of its data. -/
def commitTime (data : List Byte) : PTime := { sec := leAt data 1 6, ns := leAt data 7 4 }

def State.valueCode (s : State) (src : Source) (c : DictCommand) (r : Option Row) : Nat :=
  match c.op, r with
  | .write, some r => s.writeCode r c.idx c.sub c.data
  | .blockClose, _ =>
    match s.transferOf src with
    | some x => blockCode c.idx x.data
    | none => 0
  | .commit, _ =>
    if c.data.isEmpty || !((s.cgroup c.sub).state == .staged) then 0
    else if 1 < byteAt c.data 0 then abRange 3
    else if secNs ≤ (commitTime c.data).ns then abRange 5
    else 0
  | _, _ => 0

/-- The validation of a group, and a rule commit without a free slot. -/
def State.groupAbort (s : State) (g : Nat) : Nat :=
  match if g = 0x10 then s.ruleCheck s.stagedBundle s.stagedDefault else s.groupCode g with
  | 0 => if g = 0x10 ∧ s.freeSlot.isNone then abVersions else 0
  | n + 1 => abGroup (n + 1)

/-- Is the COMMIT one of a rule bundle still being prepared, which waits (03 R76)? -/
def State.commitWaits (s : State) (c : DictCommand) : Bool :=
  c.op == .commit && c.sub == 0x10 && (s.cgroup 0x10).state == .staged && s.rules.prep == .preparing

def State.commitCode (s : State) (c : DictCommand) : Nat :=
  if c.op == .commit && (s.cgroup c.sub).state == .staged && !s.commitWaits c then s.groupAbort c.sub else 0

/-! ### The whole check (R42) -/

/-- Items 4 to 12. -/
def State.laterCode (s : State) (src : Source) (c : DictCommand) : Nat :=
  let r := if c.op.onGroup then none else rowOf c.idx c.sub
  let onRow (f : Row → Nat) : Nat := match r with
    | some r => f r
    | none => 0
  orElse_ (if c.op.onGroup then groupDenied src c else onRow (s.accessCode src c)) fun _ =>
  orElse_ (State.lengthCode r c) fun _ =>
  orElse_ (anchorGroupCode src c) fun _ =>
  orElse_ (onRow s.darkCode) fun _ =>
  orElse_ (onRow (s.runningCode c)) fun _ =>
  orElse_ (s.busyCode src c r) fun _ =>
  orElse_ (onRow (s.transferCode src c)) fun _ =>
  orElse_ (s.valueCode src c r) fun _ => s.commitCode c

/-- The first abort of R42 that applies to a command, 0 when none does. -/
def State.check (s : State) (src : Source) (c : DictCommand) : Nat :=
  match c.op with
  | .unknown _ => abOpcode
  | _ =>
    orElse_ (s.sourceCode src) fun _ =>
    orElse_ (s.existsCode c) fun _ => s.laterCode src c

end Sys2Proof.Machine
end

