-- ==== Sys2Proof/Machine/Engine.lean ====
section
/-! DEFINITION. What the dictionary engine does with a command that passes its checks: values and their effects, block
transfers, groups, the hand-over to Marshal firmware, answers, and requests and relays of Pouvex (02 R27 to R40; 13 R348,
R349; entries of all chapters whose writes act at once). -/
namespace Sys2Proof.Machine

/-! ### Writes that act at once -/

/-- Blow the owner key hash, OWNER_SET and LIFECYCLE (15 R400); an uncorrectable word aborts it (R390). -/
def State.programOwner (s : State) (hash : List Byte) : State :=
  let s := s.fuseFailures (weakFuses (hashFuses 384 hash ++ [640, 2]))
  if Config.fuseUncorrectable 0 || Config.fuseUncorrectable 2 then { s with nv.ownerBad := true }
  else { s with nv := { s.nv with
    ownerHash := Machine.slice hash 0 32, ownerSet := true, lifecycle := s.nv.lifecycle ||| 0b0111 } }

/-- Blow CO_SIGN. -/
def State.programCoSign (s : State) : State :=
  let s := s.fuseFailures (weakFuses [641])
  if Config.fuseUncorrectable 1 then { s with nv.ownerBad := true } else { s with nv.coSign := true }

/-- Blow LIFECYCLE to decommissioned (15 R401). -/
def State.retire (s : State) : State :=
  let s := s.fuseFailures (weakFuses (below 4 fun i => !s.nv.lifecycle.getLsbD i))
  if Config.fuseUncorrectable 2 then { s with nv.ownerBad := true } else { s with nv.lifecycle := 0b1111 }

/-- A write of true to 0xD011.00 resumes the boot at step 6 with what RECOVERY supplied; other images come from a valid
directory, unless the flash did not respond (15 R397). -/
def State.resume_ (s : State) : State :=
  let flash := if s.boot.silent then none else s.nv.preferred
  { s with boot := { s.boot with state := .booting, step := 6, set := 2, flashSet := flash, tried := true } }

/-- A generator takes the value written; its new value is mirrored with the next batch (9 R240; 12 R321). -/
def State.writeGenerator (s : State) (v : Nat) : State :=
  let h := s.num 0x7002 1
  let s := s.setGenerator h (BitVec.ofNat 16 v)
  { s with pair.genDirty := if s.pair.genDirty.contains h then s.pair.genDirty else s.pair.genDirty ++ [h] }

/-- A group command is accepted; its effect begins 10 µs later (11 R290). -/
def State.queueGroup (s : State) (g code : Nat) : State :=
  { s with proc.commands := s.proc.commands ++ [{ group := g, code, at_ := s.now + 10 * usPs }] }

/-- The effect of a write to an entry whose value a block holds; none: the dictionary holds the value. -/
def State.writeBlock (s : State) (p : Principal) (idx sub : Nat) (bs : List Byte) : Option State :=
  let v := leVal bs
  if 0x2040 ≤ idx ∧ idx < 0x2060 ∧ sub = 2 then
    some (s.setPort (idx - 0x2040) { s.port (idx - 0x2040) with stagingHigh := 0 })
  else if 0x9100 ≤ idx ∧ idx ≤ 0x9102 ∧ sub = 2 then some (s.queueGroup (idx - 0x9100) v)
  else match idx, sub with
    | 0x2400, 8 => some { s with fdb.queueHigh := 0 }
    | 0x3000, 4 => some { s with flow.patHigh := 0 }
    | 0x3000, 5 => some { s with flow.flightHigh := 0 }
    | 0x5000, 8 => some { s with buf.cellsHigh := 0 }
    | 0x5100, n + 2 => if n < 4 then some (s.setFinish n { s.finish n with high := 0 }) else none
    | 0x7002, 2 => some (s.writeGenerator v)
    | 0x7002, 4 => some (if v = 1 then s.resetRecovery (s.num 0x7002 1) else s)
    | 0xB103, 2 => some (if v = 1 then s.takeAnchor else s)
    | 0xB103, 3 => some (s.releaseNode v)
    | 0xB103, 4 => some (s.reEnrol v)
    | 0xC000, 2 => some (match devOf v with | some d => s.powerRequest d | none => s)
    | 0xD000, 2 => some (if v = 1 then { s with boot.resetAt := some (s.now + 10 * usPs) } else s)
    | 0xD011, 0 => some (if v = 1 then s.resume_ else s)
    | 0xD100, 1 => some (s.programOwner bs)
    | 0xD100, 2 => some (if v = 1 then s.programCoSign else s)
    | 0xD100, 3 => some (s.advanceVersion false v)
    | 0xD100, 4 => some (s.advanceVersion true v)
    | 0xD100, 7 => some s.retire
    | 0xD200, 1 => some (s.requestReport (p == .anchor) bs)
    | 0xF000, 4 => some { s with panel.dieHigh := s.panel.die }
    | 0xF100, 7 => some (if v = 1 then s.identifyOn else s.identifyOff)
    | _, _ => none

/-- What a new active value that the dictionary holds does at once: the admission bucket never holds more than its depth. -/
def State.writeEffect (s : State) (idx sub : Nat) : State :=
  if idx = 0x3002 ∧ sub = 2 then { s with flow.tokens := min s.flow.tokens (s.num 0x3002 2 * 10 ^ 12) } else s

/-- A write or an open block makes a CLEAN group STAGED, with its principal as the holder (R31). -/
def State.stage (s : State) (g : Nat) (p : Principal) : State :=
  let x := s.cgroup g
  match x.state with
  | .clean => s.setCgroup g { x with state := .staged, holder := some p }
  | _ => s

/-- Store a value: in its group's staging copy, in the block that holds it, or as the active value. -/
def State.store (s : State) (p : Principal) (r : Row) (idx sub : Nat) (data : List Byte) : State :=
  let bs := keptBytes r idx sub data
  match r.group idx with
  | some g =>
    let s := s.stage g p
    { s with dict.staged := tput s.dict.staged (entryKey idx sub) bs }
  | none =>
    match s.writeBlock p idx sub bs with
    | some s => s
    | none => (s.setVal idx sub bs).writeEffect idx sub

/-! ### Blocks that act at BLOCK_CLOSE -/

/-- An image supplied in RECOVERY: verified, and taken for this boot when it passes (15 R397). -/
def State.recoveryImage (s : State) (m : List Byte) : State :=
  let st := s.imageState (imgType m) m
  let s := s.noteImage 6 st
  if st = 1 then { s with boot.recovery := tput s.boot.recovery (imgType m) m } else s

/-- A whole boot set for the flash: its directory and every image are verified before it is programmed (15 R398). -/
def State.flashSet (s : State) (d : List Byte) : State :=
  let states := if dirValid d then (dirEntries d).map fun e => s.imageState e.ty (Machine.slice d e.off e.len) else []
  let s := states.foldl (fun (s : State) st => if 2 ≤ st then s.count (Num.imagesRefused (st - 2)) else s) s
  if dirValid d && states.all (· == 1) then { s with boot := { s.boot with update := 1, updating := some d } }
  else { s with boot := { s.boot with update := 3, updating := none } }.bootEvent 32

/-- A block has been closed: it is stored, and acts. -/
def State.closeBlock (s : State) (p : Principal) (r : Row) (idx sub : Nat) (data : List Byte) : State :=
  match idx, sub with
  | 0xD010, 0 => s.recoveryImage data
  | 0xD020, 1 => s.flashSet data
  | 0x9200, 1 =>
    let s := s.store p r idx sub data
    { s with proc.program := 1 }
  | 0x2301, 0 => (s.store p r idx sub data).bundleClosed
  | _, _ => s.store p r idx sub data

/-! ### The effect of a command that passes its checks -/

/-- An entry that the Timekeepers serve wakes their cores at rest (11 R299; 18 Table 18.3). -/
def State.readValue (s : State) (staged : Bool) (r : Row) (idx sub : Nat) : List Byte × State :=
  (s.value staged r idx sub, if r.server == .timekeepers then s.wakeGroup timekeepersGroup else s)

/-- A block is opened; its group is staged. -/
def State.openBlock (s : State) (src : Source) (r : Row) (c : DictCommand) : State :=
  let s := match r.group c.idx with
    | some g => s.stage g (principalOf src)
    | none => s
  let x : Transfer := { src, idx := c.idx, sub := c.sub, total := leVal c.data, since := s.now }
  { s with dict.transfers := s.dict.transfers ++ [x] }

/-- A segment joins the transfer of its source. -/
def State.takeSegment (s : State) (src : Source) (data : List Byte) : State :=
  { s with dict.transfers := s.dict.transfers.map fun x =>
    if x.src == src then { x with data := x.data ++ data, nextSeg := x.nextSeg + 1, since := s.now } else x }

/-- A COMMIT that passes: of a CLEAN group it has no effect (R32, R33). -/
def State.doCommit (s : State) (c : DictCommand) : State :=
  if !((s.cgroup c.sub).state == .staged) then s
  else if c.data.isEmpty then s.commitNow c.sub
  else s.commitTimed c.sub (byteAt c.data 0) (commitTime c.data)

/-- A DISCARD that passes; a forced one of a group with a holder is an event (R34). -/
def State.doDiscard (s : State) (c : DictCommand) : State :=
  let x := s.cgroup c.sub
  let s := s.discardGroup c.sub
  if c.forced && x.holder.isSome then s.raise 0x184 1 [byte c.sub, byte (principalCode x.holder)] else s

/-- The effect of a command that the engine serves, with the data it returns. -/
def State.perform (s : State) (src : Source) (c : DictCommand) : List Byte × State :=
  let p := principalOf src
  match c.op, rowOf c.idx c.sub with
  | .commit, _ => ([], s.doCommit c)
  | .discard, _ => ([], s.doDiscard c)
  | .read, some r => s.readValue false r c.idx c.sub
  | .readStaged, some r => s.readValue true r c.idx c.sub
  | .write, some r => ([], s.store p r c.idx c.sub c.data)
  | .blockOpen, some r => ([], s.openBlock src r c)
  | .blockSeg, some _ => ([], s.takeSegment src c.data)
  | .blockClose, some r =>
    let data := match s.transferOf src with
      | some x => x.data
      | none => []
    ([], (s.dropTransfer src).closeBlock p r c.idx c.sub data)
  | .blockCancel, _ => ([], s.dropTransfer src)
  | .blockRead, some r => (s.blockBytes false r c.idx c.sub (4096 * c.seg) 4096, s)
  | .blockReadStaged, some r => (s.blockBytes true r c.idx c.sub (4096 * c.seg) 4096, s)
  | _, _ => ([], s)

/-- Does the abort end the transfer of its source (R38)? -/
def endsTransfer (c : DictCommand) (code : Nat) : Bool :=
  match c.op with
  | .blockSeg => code == abBlock 1 || code == abBlock 3
  | .blockClose => code == abBlock 2 || code == abBlock 3 || code / 65536 == 0x0830
  | _ => false

/-- Is the command one that Marshal firmware serves (R39; 18 Table 18.3)? -/
def handedOver (c : DictCommand) : Bool :=
  match c.idx, c.sub, c.op with
  | _, _, .commit => false
  | _, _, .discard => false
  | 0x3500, 2, _ => true
  | 0x3500, 3, _ => true
  | 0xB200, 2, op => op.reads || op == .blockClose
  | 0xB200, 3, op => op.reads
  | 0xB200, 4, _ => true
  | _, _, _ => false

/-! ### Answers (R36, 13 R348) -/

/-- A command window at completion; the data it returns overwrites the start of DW_DATA. -/
def Window.finish (w : Window) (code : Nat) (data : List Byte) : Window :=
  { w with
    busy := false, done := true, result := BitVec.ofNat 32 code, rlen := BitVec.ofNat 13 data.length
    data := if data.isEmpty then w.data else splice w.data 0 data }

/-- The completion event of a window. -/
def State.windowEvent (s : State) (source code : Nat) : State :=
  s.raise source (1 + flagIf (code != 0) 1) (capture [(4, code)])

/-- Every completed command is counted once (Table 2.5). -/
def State.countCommand (s : State) (code : Nat) : State :=
  if code = 0 then { s with dict.completed := s.dict.completed + 1 } else { s with dict.aborted := s.dict.aborted + 1 }

/-- Bytes of a value as Pouvex carries them: numbers big-endian, byte strings as they stand (R21). -/
def wireValue (ty : Ty) (bs : List Byte) : List Byte :=
  match ty with
  | .octet _ => bs
  | .block _ _ => bs
  | .ptime => (bs.take 6).reverse ++ (bs.drop 6).reverse
  | _ => bs.reverse

/-- The data of a command between Pouvex and the engine, which is its own inverse. -/
def wireData (op : DictOp) (idx sub : Nat) (bs : List Byte) : List Byte :=
  match op with
  | .commit => bs.take 1 ++ ((bs.drop 1).take 6).reverse ++ (bs.drop 7).reverse
  | .blockOpen => bs.reverse
  | .blockClose => bs.reverse
  | .read => match rowOf idx sub with | some r => wireValue r.ty bs | none => bs
  | .readStaged => match rowOf idx sub with | some r => wireValue r.ty bs | none => bs
  | .write => match rowOf idx sub with | some r => wireValue r.ty bs | none => bs
  | _ => bs

/-- The command in the body of DICT_REQ (13 Table 13.5). -/
def requestOf (b : List Byte) : DictCommand :=
  let op := dictOpOf (byteAt b 0)
  let idx := beAt b 2 2
  let sub := byteAt b 4
  { op, idx, sub, seg := beAt b 8 2, data := wireData op idx sub (Machine.slice b 12 (beAt b 10 2)) }

/-- The body of DICT_RSP to a request (13 Table 13.5). -/
def responseTo (b : List Byte) (code : Nat) (data : List Byte) : List Byte :=
  let c := requestOf b
  let data := wireData c.op c.idx c.sub data
  [byte (byteAt b 0), 0] ++ Machine.slice b 2 2 ++ [byte (byteAt b 4), 0] ++ Machine.slice b 6 2
    ++ beBytes 4 code ++ beBytes 2 data.length ++ [0, 0] ++ data

/-- The responses kept: the last 16 of each source. -/
def keepResponse (l : List Kept) (k : Kept) : List Kept :=
  let mine := (k :: l.filter fun x => x.src == k.src).take 16
  mine ++ l.filter fun x => x.src != k.src

/-- The request being served is answered, and its response kept. -/
def State.respond (s : State) (code : Nat) (data : List Byte) : State :=
  match s.dom.requests with
  | [] => s
  | k :: rest =>
    let body := responseTo k.body code data
    let s := { s with dom := { s.dom with
      requests := rest, kept := keepResponse s.dom.kept { src := k.src, seq := k.seq, body } } }
    (s.pouvexSend k.src msgDictRsp body).count Num.requestsServed

/-- Is the command that of the Pouvex request being served? -/
def State.isRequest (s : State) (src : Source) (c : DictCommand) : Bool :=
  match src, s.dom.requests with
  | .pouvex n, k :: _ => k.src == n && requestOf k.body == c
  | _, _ => false

/-- A command completes with its code and the data it returns. `lost`: the window it came through has been reset. -/
def State.answer (s : State) (src : Source) (c : DictCommand) (lost : Bool) (code : Nat) (data : List Byte) : State :=
  let s := s.countCommand code
  match src with
  | .secure =>
    if lost then s
    else State.windowEvent { s with dict.secure := s.dict.secure.finish code data } 0x182 code
  | .nonsecure =>
    if lost then s
    else State.windowEvent { s with dict.nonsecure := s.dict.nonsecure.finish code data } 0x183 code
  | _ => if s.isRequest src c then s.respond code data else s.emit (.answer src code data)

/-! ### The relay (13 R349) -/

/-- Is the waiting command a relay, and the relay in progress? -/
def Waiting.isRelay (w : Waiting) : Bool := w.cmd.op == .blockClose && w.cmd.idx == 0xB200
def State.relayNow (s : State) : Option Waiting := s.dict.served.find? Waiting.isRelay

/-- Send a request to one node, under a new SEQ. -/
def State.relayTo (s : State) (body : List Byte) (n : Nat) : State :=
  let leg : RelayLeg := { node := n, seq := s.dom.seq.toNat, resends := 0, due := s.now + s.resendPs }
  let s := { s with dom.relay := s.dom.relay ++ [leg] }
  s.pouvexSend n msgDictReq body

/-- The nodes that a relay goes to: the target, or every node that the roster shows present. -/
def State.relayTargets (s : State) : List Nat :=
  let n := s.num 0xB200 1
  if n = nodeAll then below 64 fun n => (s.live n).presence == 2 else [n]

/-- Marshal firmware takes up the oldest relay handed to it. -/
def State.relayStart (s : State) : State :=
  match s.relayNow with
  | none => s
  | some w =>
    let all := s.num 0xB200 1 == nodeAll
    let unknown : Tab Nat := (List.range 64).map fun n => (n, 0xFFFFFFFF)
    let s := { s with dom := { s.dom with
      relayRequest := w.cmd.data, relay := [], relayAll := all
      relayResults := if all then unknown else s.dom.relayResults } }
    s.relayTargets.foldl (fun (s : State) n => s.relayTo w.cmd.data n) s

/-- Take a waiting command off the list. -/
def State.dropServed (s : State) (w : Waiting) : State := { s with dict.served := s.dict.served.erase w }

/-- The relay in progress completes with a code, and the next one is taken up. -/
def State.relayDone (s : State) (code : Nat) (response : List Byte) : State :=
  match s.relayNow with
  | none => s
  | some w =>
    let s := s.dropServed w
    let s := { s with dom := { s.dom with relay := [], relayAll := false, relayResponse := response } }
    let s := if code = 0 then s.setVal 0xB200 2 w.cmd.data else s
    (s.answer w.src w.cmd w.lost code []).relayStart

/-- A relay to every node with no leg left completes; 0xB200.03 is empty then. -/
def State.relaySettle : Nat → State → State
  | 0, s => s
  | k + 1, s =>
    if s.relayNow.isSome && s.dom.relayAll && s.dom.relay.isEmpty then State.relaySettle k (s.relayDone 0 []) else s

/-! ### Commands as the engine takes them (R39, R40) -/

/-- Hand a command over to Marshal firmware, with the service timeout now in force: it wakes cores at rest (11 R299). A
relay carries the whole block. -/
def State.handOver (s : State) (src : Source) (c : DictCommand) : State :=
  let close := c.op == .blockClose
  let c := match close, s.transferOf src with
    | true, some x => { c with data := x.data }
    | _, _ => c
  let s := if close then s.dropTransfer src else s
  let idle := s.relayNow.isNone
  let w : Waiting := { src, cmd := c, at_ := s.now, limit := s.num 0x1101 0 }
  let s := { s with dict.served := s.dict.served ++ [w] }
  let s := (s.wakeGroup marshalGroup).emit (.service src c)
  if close && idle then State.relaySettle 4 s.relayStart else s

/-- The end of a bundle's preparation, with the COMMIT that waits for it (03 R76). -/
def State.finishPreparation (s : State) : State :=
  if !(s.rules.prep == .preparing) then s else
  let s := s.prepared (s.stagedBundle.getD [])
  match s.rules.waiting with
  | none => s
  | some w =>
    let s := { s with rules.waiting := none }
    match s.groupAbort 0x10 with
    | 0 => (s.doCommit w.cmd).answer w.src w.cmd w.lost 0 []
    | n + 1 => s.answer w.src w.cmd w.lost (n + 1) []

/-- The engine serves one command: it aborts, waits, is handed over, or takes effect and completes. A COMMIT that waits for a
preparation was accepted before, so the preparation ends first (R40). -/
def State.command (s : State) (src : Source) (c : DictCommand) : State :=
  let s := if s.rules.waiting.isSome then s.finishPreparation else s
  match s.check src c with
  | n + 1 => (if endsTransfer c (n + 1) then s.dropTransfer src else s).answer src c false (n + 1) []
  | 0 =>
    let w : Waiting := { src, cmd := c, at_ := s.now }
    if s.commitWaits c then { s with rules.waiting := some w }
    else if handedOver c then s.handOver src c
    else
      let (data, s) := s.perform src c
      s.answer src c false 0 data

/-- Does the request being served wait? -/
def State.requestWaits (s : State) : Bool :=
  (s.rules.waiting.toList ++ s.dict.served).any fun w => s.isRequest w.src w.cmd

/-- Serve the requests held, in order, until one waits (13 R348). -/
def State.serveRequests : Nat → State → State
  | 0, s => s
  | k + 1, s =>
    match s.dom.requests with
    | [] => s
    | r :: _ =>
      if s.requestWaits then s
      else State.serveRequests k (s.command (.pouvex r.src) (requestOf r.body))

/-- Requests held at most (13 R348). -/
def heldRequests : Nat := 16

/-- A command is placed in a window: DW_LEN and DW_DATA take its length, segment and data. -/
def Window.place (w : Window) (c : DictCommand) : Window :=
  { w with
    segment := BitVec.ofNat 16 c.seg, length := BitVec.ofNat 13 (min c.data.length 8191)
    data := if c.data.isEmpty then w.data else splice w.data 0 (c.data.take 4096) }

/-- The sources that reach the dictionary engine by no window and no message, whose answers go straight back. -/
def isDirect : Source → Bool
  | .marshal => true | .judge => true | .starter => true | _ => false

/-- The command starts: BUSY, with the TAG latched (R36). -/
def Window.start (w : Window) : Window := { w with busy := true, overrun := false, done := false, tag := w.regTag }

/-- What a write to DW_CMD latches from its window. -/
def Window.latched (w : Window) (c : DictCommand) : DictCommand :=
  { c with seg := w.segment.toNat, data := Machine.slice w.data 0 w.length.toNat }

/-- The engine serves a command, and then the requests that it holds. -/
def State.serve (s : State) (src : Source) (c : DictCommand) : State :=
  State.serveRequests (heldRequests + 1) (s.command src c)

/-- A command arrives on a path. In a window the host places it and writes DW_CMD, and while BUSY is 1 every such write is
dropped (R36, R37). -/
def State.accept (s : State) (src : Source) (c : DictCommand) : State :=
  if !s.hearsSource src then s else
  match src with
  | .secure =>
    let w := s.dict.secure
    if w.busy then { s with dict.secure := { w with overrun := true } }
    else State.serve { s with dict.secure := (w.place c).start } src c
  | .nonsecure =>
    let w := s.dict.nonsecure
    if w.busy then { s with dict.nonsecure := { w with overrun := true } }
    else State.serve { s with dict.nonsecure := (w.place c).start } src c
  | _ => s.serve src c

/-- A WRITE of one entry. -/
def State.acceptWrite (s : State) (src : Source) (idx sub : Nat) (data : List Byte) : State :=
  s.accept src { op := .write, idx, sub, data }

end Sys2Proof.Machine
end

