-- ==== Sys2Proof/Machine/DictRows.lean ====
section
/-! DEFINITION. The commands of the dictionary, of Pouvex requests and relays, and the commands that are writes of one entry
(02 R35 to R40; 03 R76; 11 R290; 13 R348, R349; 14 R364; 15 R386, R397 to R404). -/
namespace Sys2Proof.Machine

/-- Run a command of the dictionary engine, which may blow fuses, as the requests that it goes on to serve may (13 R348; 15
R399); DORMANT answers none (10 R283). -/
def State.runDict (s : State) (t : Nat) (f : State → State) : Result :=
  s.runNv t fun s => if s.dormant then s else f s

/-! ### The opcodes (02 Table 2.3) -/

/-- The identity record, which the always-on domain holds (00 R7). -/
def identityRecord (idx : Nat) : Bool := decide (0x1000 ≤ idx) && decide (idx ≤ 0x1018)

/-- READ: the active value (R35). In DORMANT the windows are dark and the marshal ports are down (10 R283), and the identity
record is still read by the sources that need neither (00 R7). -/
def execRead (t : Nat) (src : Source) (idx : BitVec 16) (sub : BitVec 8) (s : State) : Result :=
  s.runNv t fun s =>
    let c : DictCommand := { op := .read, idx := idx.toNat, sub := sub.toNat }
    if !s.dormant then s.accept src c
    else if isDirect src && identityRecord idx.toNat then s.command src c
    else s

/-- WRITE: into the staging copy, or into the active value. -/
def execWrite (t : Nat) (src : Source) (idx : BitVec 16) (sub : BitVec 8) (data : List Byte) (s : State) : Result :=
  s.runDict t fun s => s.acceptWrite src idx.toNat sub.toNat data

/-- READ_STAGED: the staging value, or the active value of an entry that is not STAGED (R35). -/
def execReadStaged (t : Nat) (src : Source) (idx : BitVec 16) (sub : BitVec 8) (s : State) : Result :=
  s.runDict t fun s => s.accept src { op := .readStaged, idx := idx.toNat, sub := sub.toNat }

/-- COMMIT of a group (R32, R33). -/
def execCommit (t : Nat) (src : Source) (group : BitVec 8) (data : List Byte) (s : State) : Result :=
  s.runDict t fun s => s.accept src { op := .commit, sub := group.toNat, data }

/-- DISCARD of a group (R34). -/
def execDiscard (t : Nat) (src : Source) (group : BitVec 8) (data : List Byte) (s : State) : Result :=
  s.runDict t fun s => s.accept src { op := .discard, sub := group.toNat, data }

/-- BLOCK_OPEN: a transfer is opened (R38). -/
def execBlockOpen (t : Nat) (src : Source) (idx : BitVec 16) (sub : BitVec 8) (data : List Byte) (s : State) : Result :=
  s.runDict t fun s => s.accept src { op := .blockOpen, idx := idx.toNat, sub := sub.toNat, data }

/-- BLOCK_SEG: one segment of the open transfer (R38). -/
def execBlockSeg (t : Nat) (src : Source) (idx : BitVec 16) (sub : BitVec 8) (seg : BitVec 16) (data : List Byte) (s : State) :
    Result :=
  s.runDict t fun s => s.accept src { op := .blockSeg, idx := idx.toNat, sub := sub.toNat, seg := seg.toNat, data }

/-- BLOCK_CLOSE: the transfer ends, and its block is stored (R38). -/
def execBlockClose (t : Nat) (src : Source) (idx : BitVec 16) (sub : BitVec 8) (data : List Byte) (s : State) : Result :=
  s.runDict t fun s => s.accept src { op := .blockClose, idx := idx.toNat, sub := sub.toNat, data }

/-- BLOCK_READ: up to 4,096 bytes of the active block. -/
def execBlockRead (t : Nat) (src : Source) (idx : BitVec 16) (sub : BitVec 8) (seg : BitVec 16) (s : State) : Result :=
  s.runDict t fun s => s.accept src { op := .blockRead, idx := idx.toNat, sub := sub.toNat, seg := seg.toNat }

/-- BLOCK_CANCEL: the open transfer ends. -/
def execBlockCancel (t : Nat) (src : Source) (idx : BitVec 16) (sub : BitVec 8) (s : State) : Result :=
  s.runDict t fun s => s.accept src { op := .blockCancel, idx := idx.toNat, sub := sub.toNat }

/-- BLOCK_READ_STAGED: up to 4,096 bytes of the staging block. -/
def execBlockReadStaged (t : Nat) (src : Source) (idx : BitVec 16) (sub : BitVec 8) (seg : BitVec 16) (s : State) : Result :=
  s.runDict t fun s => s.accept src { op := .blockReadStaged, idx := idx.toNat, sub := sub.toNat, seg := seg.toNat }

/-- Any other opcode is refused, whatever its operands (R42 item 1); a code of Table 2.3 is not unknown, and has a row of its
own. -/
def execUnknownOpcode (t : Nat) (src : Source) (op : BitVec 8) (s : State) : Result :=
  s.runDict t fun s =>
    match dictOpOf op.toNat with
    | .unknown n => s.accept src { op := .unknown n }
    | _ => s

/-! ### What the engine does at an instant of its own -/

/-- TIMED_COMMIT_EFFECT: the clock of a PENDING group reaches its PTIME (R33). -/
def execTimedCommitEffect (t : Nat) (group : BitVec 8) (s : State) : Result :=
  s.run t fun s =>
    let g := group.toNat
    let x := s.cgroup g
    if x.state == .pending && s.reachedTime x.pdomain x.ptime then s.commitNow g else s

/-- How the block-abandoned event names a source (R420): path and node. -/
def sourceBytes : Source → List (Nat × Nat)
  | .secure => [(1, 0), (1, 0xFF)]
  | .nonsecure => [(1, 1), (1, 0xFF)]
  | .pouvex n => [(1, 2), (1, n)]
  | .marshal => [(1, 3), (1, 0xFF)]
  | .judge => [(1, 3), (1, 0xFF)]
  | .starter => [(1, 4), (1, 0xFF)]

/-- BLOCK_ABANDONED: a transfer without a segment for the idle limit ends (R38). -/
def execBlockAbandoned (t : Nat) (src : Source) (s : State) : Result :=
  s.run t fun s =>
    match s.transferOf src with
    | some x =>
      if x.since + s.num 0x1102 0 * nsPs ≤ s.now then
        (s.dropTransfer src).raise 0x185 1 (capture (sourceBytes src ++ [(2, x.idx)]))
      else s
    | none => s

/-- The oldest command of a source that waits for Marshal firmware, and the instant at which its time is over. -/
def State.servedOf (s : State) (src : Source) : Option Waiting := s.dict.served.find? fun w => w.src == src
def Waiting.late (w : Waiting) (now : Nat) : Bool := decide (w.at_ + w.limit * nsPs ≤ now)

/-- A command that waits for the firmware completes with an abort; a relay ends with it. -/
def State.failServed (s : State) (w : Waiting) (code : Nat) : State :=
  if s.relayNow == some w then s.relayDone code s.dom.relayResponse
  else (s.dropServed w).answer w.src w.cmd w.lost code []

/-- MARSHAL_SERVICE_TIMEOUT: the firmware has not answered within the timeout (R39). -/
def execMarshalServiceTimeout (t : Nat) (src : Source) (s : State) : Result :=
  s.runDict t fun s =>
    match s.servedOf src with
    | some w =>
      if w.late s.now then State.serveRequests (heldRequests + 1) (State.relaySettle 4 (s.failServed w abTimeout)) else s
    | none => s

/-- The firmware answers a command: with an abort, or by serving it. A relay completes by its responses alone. -/
def State.firmwareAnswer (s : State) (w : Waiting) (code : Nat) : State :=
  if code ≠ 0 then s.failServed w code
  else if w.isRelay then s
  else
    let (data, s) := (s.dropServed w).perform w.src w.cmd
    s.answer w.src w.cmd w.lost 0 data

/-- MARSHAL_ANSWER: firmware answers the oldest command of a source; an answer past the timeout is discarded (R39). -/
def execMarshalAnswer (t : Nat) (src : Source) (code : BitVec 32) (s : State) : Result :=
  s.runDict t fun s =>
    match s.servedOf src with
    | some w =>
      if w.late s.now || !s.groupActs marshalGroup then s
      else State.serveRequests (heldRequests + 1) (State.relaySettle 4 (s.firmwareAnswer w code.toNat))
    | none => s

/-- BUNDLE_PREPARED: the preparation of a rule bundle ends (03 R76). -/
def execBundlePrepared (t : Nat) (s : State) : Result :=
  s.runDict t fun s => State.serveRequests (heldRequests + 1) s.finishPreparation

/-! ### Requests and relays across the domain (13 R348, R349) -/

/-- Does the device serve dictionary requests: a worker with a number, or node 62, whose Marshal is RUNNING? -/
def State.servesRequests (s : State) : Bool :=
  ((s.isWorker && s.node != nodeNone) || s.domainRole == 3) && s.groupActs marshalGroup

/-- DICT_REQ: a request is answered from those kept, refused, or held and served in order (R348). -/
def execDictReq (t : Nat) (src seq : Nat) (body : List Byte) (s : State) : Result :=
  s.runDict t fun s =>
    if !s.groupActs marshalGroup then s else
    let s := s.takeMsg msgDictReq src
    if !s.servesRequests then s else
    match s.dom.kept.find? fun k => k.src == src && k.seq == seq with
    | some k => (s.pouvexSend src msgDictRsp k.body).count Num.responsesRepeated
    | none =>
      if s.dom.requests.any fun k => k.src == src && k.seq == seq then s
      else if heldRequests ≤ s.dom.requests.length then
        (s.pouvexSend src msgDictRsp (responseTo body (abBusy 1) [])).count Num.requestsBusy
      else
        let k : Kept := { src, seq, body }
        State.serveRequests (heldRequests + 1) { s with dom.requests := s.dom.requests ++ [k] }

/-- Does a response answer the relay's request: opcode, index, sub-index and tag? -/
def answersRelay (request response : List Byte) : Bool := Machine.slice request 0 8 == Machine.slice response 0 8

/-- A relay leg has its result: the answer of its node, or a failure. -/
def State.legDone (s : State) (leg : RelayLeg) (code : Nat) (response : List Byte) : State :=
  let s := { s with dom := { s.dom with relay := s.dom.relay.erase leg } }
  if s.dom.relayAll then { s with dom.relayResults := tset 0 s.dom.relayResults leg.node code }
  else if code = abUnreachable ∧ response.isEmpty then s.relayDone code s.dom.relayResponse
  else s.relayDone 0 response

/-- DICT_RSP: the response of a node that the relay waits for (R349). -/
def execDictRsp (t : Nat) (src : Nat) (body : List Byte) (s : State) : Result :=
  s.runMarshal t fun s =>
    let s := s.takeMsg msgDictRsp src
    match s.dom.relay.find? fun l => l.node == src with
    | some l =>
      if s.groupActs marshalGroup && answersRelay s.dom.relayRequest body then
        State.relaySettle 4 (s.legDone l (beAt body 8 4) body)
      else s
    | none => s

/-- RELAY_RESEND: the request goes again, with its SEQ, up to three times; then its node is unreachable (R349). -/
def execRelayResend (t : Nat) (node : Nat) (s : State) : Result :=
  s.run t fun s =>
    match s.dom.relay.find? fun l => l.node == node with
    | some l =>
      if s.now < l.due || !s.groupActs marshalGroup then s
      else if l.resends < 3 then
        let l' := { l with resends := l.resends + 1, due := s.now + s.resendPs }
        let s := { s with dom := { s.dom with relay := s.dom.relay.map fun x => if x == l then l' else x } }
        let send (s : State) (p : Nat) := s.pouvexOn p node msgDictReq l.seq s.dom.relayRequest
        (send (send s 0) 1).count Num.relayResends
      else State.relaySettle 4 ((s.count Num.relayFailures).legDone l abUnreachable [])
    | none => s

/-! ### Commands that are writes of one entry -/

/-- GROUP_STOP: 0x01 is written to 0x9100+g.02 (11 R290). -/
def execGroupStop (t : Nat) (src : Source) (g : Fin 3) (s : State) : Result :=
  s.runDict t fun s => s.acceptWrite src (0x9100 + g) 2 [1]

/-- GROUP_START: 0x02 is written to 0x9100+g.02. -/
def execGroupStart (t : Nat) (src : Source) (g : Fin 3) (s : State) : Result :=
  s.runDict t fun s => s.acceptWrite src (0x9100 + g) 2 [2]

/-- GROUP_RESTART: 0x03 is written to 0x9100+g.02. -/
def execGroupRestart (t : Nat) (src : Source) (g : Fin 3) (s : State) : Result :=
  s.runDict t fun s => s.acceptWrite src (0x9100 + g) 2 [3]

/-- DEVICE_STATE_REQUEST: a state is written to 0xC000.02 (14 R364 to R366). -/
def execDeviceStateRequest (t : Nat) (src : Source) (target : BitVec 8) (s : State) : Result :=
  s.runDict t fun s => s.acceptWrite src 0xC000 2 [target]

/-- WARM_RESET_REQUEST: true is written to 0xD000.02 (15 R386, R387). -/
def execWarmResetRequest (t : Nat) (src : Source) (s : State) : Result :=
  s.runDict t fun s => s.acceptWrite src 0xD000 2 [1]

/-- RESUME_BOOT: true is written to 0xD011.00 (15 R397). -/
def execResumeBoot (t : Nat) (src : Source) (s : State) : Result :=
  s.runDict t fun s => s.acceptWrite src 0xD011 0 [1]

/-- SECURITY_VERSION_ADVANCE: a value is written to 0xD100.03, or to 0xD100.04 (15 R399). -/
def execSecurityVersionAdvance (t : Nat) (src : Source) (owner : Bool) (value : BitVec 8) (s : State) : Result :=
  s.runDict t fun s => s.acceptWrite src 0xD100 (if owner then 4 else 3) [value]

/-- OWNER_KEY_PROGRAM: a hash is written to 0xD100.01 (15 R400). -/
def execOwnerKeyProgram (t : Nat) (src : Source) (hash : List Byte) (s : State) : Result :=
  s.runDict t fun s => s.acceptWrite src 0xD100 1 hash

/-- OWNER_CO_SIGNATURE: true is written to 0xD100.02 (15 R400). -/
def execOwnerCoSignature (t : Nat) (src : Source) (s : State) : Result :=
  s.runDict t fun s => s.acceptWrite src 0xD100 2 [1]

/-- DECOMMISSION: "DECM" is written to 0xD100.07 (15 R401). -/
def execDecommission (t : Nat) (src : Source) (s : State) : Result :=
  s.runDict t fun s => s.acceptWrite src 0xD100 7 (leBytes 4 0x4445434D)

/-- ATTESTATION_REQUEST: a nonce is written to 0xD200.01 (15 R404). -/
def execAttestationRequest (t : Nat) (src : Source) (nonce : List Byte) (s : State) : Result :=
  s.runDict t fun s => s.acceptWrite src 0xD200 1 nonce

/-- TAKE_ANCHOR_ROLE: true is written to 0xB103.02 (13 R347). -/
def execTakeAnchorRole (t : Nat) (src : Source) (s : State) : Result :=
  s.runDict t fun s => s.acceptWrite src 0xB103 2 [1]

/-- RELEASE_NODE: a node is written to 0xB103.03 (13 R355). -/
def execReleaseNode (t : Nat) (src : Source) (node : BitVec 8) (s : State) : Result :=
  s.runDict t fun s => s.acceptWrite src 0xB103 3 [node]

/-- RE_ENROL_NODE: a node is written to 0xB103.04 (13 R354). -/
def execReEnrolNode (t : Nat) (src : Source) (node : BitVec 8) (s : State) : Result :=
  s.runDict t fun s => s.acceptWrite src 0xB103 4 [node]

end Sys2Proof.Machine
end

