-- ==== Sys2Proof/Machine/Boot.lean ====
section
/-! DEFINITION. Resets, the boot sequence and the update of the flash (15 R386 to R398; 11 R301, R302; 17 R436). -/
namespace Sys2Proof.Machine

/-! ### Resets (R386, R388, Table 15.1) -/

/-- Everything at its reset value but what is given, at the instant of the state (log entries 4, 16). The rail keeps its
voltage, and until the next cold boot the mailbox channels keep their binding (11 R301; log entry 87) and the identity record its
firmware versions (00 R7; Table 15.1). A flash set that was being programmed is lost (R398). -/
def State.resetWith (s : State) (nv : Nv) (ao : Ao) (cold : Bool) (millivolts : Nat) : State :=
  let fresh : State := {
    nv := if s.boot.updating.isSome then nv.erase s.boot.otherSet else nv
    ao, now := s.now, draw := s.draw, out := s.out, pending := s.pending
    pow := { millivolts }
    fdb := { tickAt := s.now }
    boot := { cold, retired := nv.lifecycle == 0b1111, versions := if cold then [] else s.boot.versions }
    mbox := if cold then {} else { binding := s.mbox.binding, fixed := s.mbox.fixed }
    clock0 := { at_ := s.now }
    clock1 := { at_ := s.now } }
  (List.range 4).foldl (fun (s : State) i => s.setSlice i { s.slice i with since := s.now }) fresh

/-- Every domain is cleared, the always-on memory included; the fuses and the flash stay. -/
def State.coldReset (s : State) (low : Bool) : State :=
  s.resetWith { s.nv with ownerBad := false } { perstHigh := s.ao.perstHigh, coldAt := s.now, coldLow := low } true 0

/-- COLD_RESET: while COLD_RST_N is low the part stands cleared, does nothing and drives no ball; the boot sequence runs from its
rise (17 R430). -/
def execColdReset (t : ColdReset) (s : State) : Result :=
  match t with
  | .asserted t => .next ((s.advance t).coldReset true)
  | .released t => .next (((s.advance t).emit .coldRelease).coldReset false)

/-- WARM_RESET: every domain but the always-on domain is cleared; Table 15.1 is kept, and the count advances. -/
def execWarmReset (t : Nat) (s : State) : Result :=
  let s := s.advance t
  .next <| if s.ao.coldLow then s else (s.resetWith s.nv { s.ao with warmResets := s.ao.warmResets + 1 } false s.pow.millivolts)

/-! ### Images of a boot (R391 to R393, R396) -/

/-- The image of a type that this boot uses: one supplied in RECOVERY, else that of the chosen set. -/
def State.bootImage (s : State) (ty : Nat) : Option (List Byte) :=
  match tfind s.boot.recovery ty with
  | some m => some m
  | none => s.boot.flashSet.bind fun n => setImage (s.nv.flashSet n) ty

/-- Verify the image of a type: its state is recorded, and its digest and versions when it passes. -/
def State.verifyImage (s : State) (ty : Nat) : State :=
  let i := imgPlace ty
  match s.bootImage ty with
  | none => s.noteImage i 0
  | some m =>
    let st := s.imageState ty m
    let s := s.noteImage i st
    if st = 1 then
      { s with boot := { s.boot with
        digests := tput s.boot.digests i (imgDigest m), versions := tput s.boot.versions i (imgVersion m)
        secvers := tput s.boot.secvers i (imgSecver m) } }
    else s

/-- Has the image of a type been verified in this boot? -/
def State.verified (s : State) (ty : Nat) : Bool := byteAt s.boot.states (imgPlace ty) == 1

/-- An image that lets boot complete is absent or refused. -/
def State.missing (s : State) (ty reason : Nat) : State :=
  if s.verified ty then s
  else { s with boot := { s.boot with reason := BitVec.ofNat 16 reason, imageBad := true } }

/-! ### Outcomes of a step (Table 15.6) -/

def State.bootFail (s : State) (reason : Nat) : State :=
  { s with boot := { s.boot with state := .failed, reason := BitVec.ofNat 16 reason } }.bootEvent 8
def State.bootRecover (s : State) (reason : Nat) : State :=
  { s with boot := { s.boot with state := .recovery, reason := BitVec.ofNat 16 reason } }.bootEvent 4
def State.nextStep (s : State) : State := { s with boot := { s.boot with step := s.boot.step + 1 } }

/-! ### Steps 1 to 7 (R395) -/

/-- Step 1: the fuses. -/
def State.bootFuses (s : State) (r : BootResult) : State :=
  if s.nv.lifecycle = 0b1111 then s.bootFail 0x0003
  else match r with
    | .fuseBad => s.bootFail 0x0001
    | .secretBad =>
      { s with
        boot := { s.boot with reason := 0x0002 }
        ao := { s.ao with secretBad := true, identity := .unavailable } }.nextStep
    | .done => s.nextStep
    | _ => s

/-- The voltage that the rail shows at the board default (17 R432). -/
def railDefault : Nat := 790 + Config.railMillivolts % 21

/-- Step 2: the rail voltage. After a warm reset the rail stands where it was. -/
def State.bootRail (s : State) : State :=
  let mv := if s.boot.cold || s.pow.millivolts = 0 then railDefault else s.pow.millivolts
  { s with pow := { s.pow with millivolts := mv } }.nextStep

/-- Step 3, cold: the next leaf fuse (R402). -/
def State.bootLeaf (s : State) : State :=
  if !s.boot.cold then s.nextStep else
  let (ok, s) := s.blowLeaf
  let s := { s with ao := { s.ao with renewedAt := s.now, leafDue := false } }
  if ok then s.nextStep
  else
    let identity : Identity := if s.ao.secretBad then .unavailable else .exhausted
    ({ s with
      boot := { s.boot with reason := 0x0050 }
      ao := { s.ao with identity } }.identityEvent 3).nextStep

/-- The set that a boot chooses: after a warm reset the one last used, while it is valid. -/
def State.chooseSet (s : State) : Option Nat :=
  let again (n : Nat) : Bool :=
    !s.boot.cold && dirValid (s.nv.flashSet n) && s.ao.generation == some (dirGeneration (s.nv.flashSet n))
  if again 0 then some 0 else if again 1 then some 1 else s.nv.preferred

/-- The boot goes on with a set. -/
def State.useSet (s : State) (n : Nat) : State :=
  { s with
    boot := { s.boot with flashSet := some n, set := BitVec.ofNat 8 n }
    ao := { s.ao with generation := some (dirGeneration (s.nv.flashSet n)) } }

/-- Before its first access after a reset the flash is reset, and then read in 1S-1S-1S mode (17 R442). -/
def State.flashReset (s : State) : State := { s with boot.flashBus := .single }.emit .flashReset

/-- Step 5: both directories are read and the set is chosen. -/
def State.bootDirectories (s : State) (r : BootResult) : State :=
  match r with
  | .flashSilent => { s with boot.silent := true }.bootRecover 0x0010
  | .done =>
    let s := { s with boot.flashBus := .octal }
    match s.chooseSet with
    | some n => (s.useSet n).nextStep
    | none => s.bootRecover 0x0011
  | _ => s

/-- Step 6: the Starter image; when it is refused the other set is tried whole, once. -/
def State.bootStarter (s : State) : State :=
  let s := s.verifyImage 0x01
  if s.verified 0x01 then s.nextStep
  else match s.boot.tried, s.boot.flashSet with
    | false, some n =>
      if dirValid (s.nv.flashSet (1 - n)) then
        { s with boot := { s.boot with reason := 0x0012, tried := true } }.useSet (1 - n)
      else s.bootRecover 0x0013
    | _, _ => s.bootRecover 0x0013

/-- The regions of R111 cleared, and the tail free list with every index in ascending order. -/
def State.clearMemory (s : State) : State :=
  { s with flow := { s.flow with
    heads := [], tails := [], backmap := [], inUse := 0, free := { runs := [(0, 67108864)], young := [] } } }

/-- Step 7: clocks and memory. -/
def State.bootMemory (s : State) (r : BootResult) : State :=
  match r with
  | .stackBad k => s.bootFail (0x0040 + k.val)
  | .done => s.clearMemory.nextStep
  | _ => s

/-! ### Step 8: the other images -/

/-- The owner program of the set is loaded into 0x9200.01; it is verified again before it runs (11 R295). -/
def State.loadOwner (s : State) : State :=
  match s.bootImage 0x20 with
  | some m => { s.setVal 0x9200 1 m with proc.program := 1 }
  | none => s

def State.bootImages (s : State) : State :=
  let s := [0x02, 0x03, 0x04].foldl (fun (s : State) ty => (s.verifyImage ty).missing ty (0x20 + ty)) s
  let s := (s.verifyImage 0x20).loadOwner
  ((s.verifyImage 0x10).missing 0x10 0x0030).nextStep

/-! ### Step 9: the dictionary image and the mailbox binding (R394; 11 R302) -/

/-- The code of the Starter's latest command. -/
def State.starterCode (s : State) : Nat :=
  match s.out.find? fun o => match o with | .answer .starter _ _ => true | _ => false with
  | some (.answer _ n _) => n
  | _ => 0

/-- One command of the Starter, which waits for its completion. -/
def State.starter (s : State) (c : DictCommand) : Nat × State :=
  let s := s.command .starter c
  let s := if s.rules.waiting.isSome then s.finishPreparation else s
  (s.starterCode, s)

/-- The segments of a block, each of 4,096 bytes but the last. -/
def segmentsFrom (data : List Byte) : Nat → Nat → List (Nat × List Byte)
  | _, 0 => []
  | k, n + 1 => (k, (data.drop (4096 * k)).take 4096) :: segmentsFrom data (k + 1) n

/-- Commands in order, up to the first that aborts; its code. -/
def State.starterAll : List DictCommand → State → Nat × State
  | [], s => (0, s)
  | c :: l, s =>
    match s.starter c with
    | (0, s) => State.starterAll l s
    | (n, s) => (n, s)

/-- The commands that a record stands for. -/
def recordCommands (op idx sub : Nat) (data : List Byte) : List DictCommand :=
  match op with
  | 0x02 => [{ op := .write, idx, sub, data }]
  | 0x10 => [{ op := .commit, sub, data }]
  | 0x20 =>
    let segs := segmentsFrom data 0 ((data.length + 4095) / 4096)
    { op := .blockOpen, idx, sub, data := leBytes 4 data.length }
      :: segs.map (fun e => { op := .blockSeg, idx, sub, seg := e.1, data := e.2 })
      ++ [{ op := .blockClose, idx, sub, data := leBytes 4 (crc32c data) }]
  | n => [{ op := .unknown n, idx, sub }]

/-- A record that aborts is skipped: number skipped, position of the first and its code; an open transfer of it ends. -/
def State.skipRecord (s : State) (pos code : Nat) : State :=
  let b := s.boot
  let first := b.skipped = 0
  { (s.dropTransfer .starter) with boot := { b with
    skipped := b.skipped + 1
    firstSkip := if first then BitVec.ofNat 32 pos else b.firstSkip
    skipCode := if first then BitVec.ofNat 32 code else b.skipCode } }

/-- Apply the records of a dictionary image from position `pos`. -/
def State.applyRecords : Nat → Nat → List Byte → State → State
  | 0, _, _, s => s
  | k + 1, pos, bs, s =>
    if bs.length < 8 then s
    else
      let n := leAt bs 4 4
      let (code, s) := State.starterAll (recordCommands (byteAt bs 3) (leAt bs 0 2) (byteAt bs 2) (Machine.slice bs 8 n)) s
      let s := if code = 0 then s else s.skipRecord pos code
      State.applyRecords k (pos + 1) (bs.drop (8 + pad4 n)) s

/-- The Starter discards every group that it still holds. -/
def State.starterDiscards (s : State) : State :=
  let held := (s.dict.groups.filter fun e => e.2.holder == some .starter).map Prod.fst
  held.foldl (fun (s : State) g => s.command .starter { op := .discard, sub := g }) s

def State.applyImage (s : State) : State :=
  match s.verified 0x10, s.bootImage 0x10 with
  | true, some m =>
    let payload := imgPayload m
    (State.applyRecords (payload.length / 8 + 1) 0 payload s).starterDiscards
  | _, _ => s

/-- A binding entry (11 Table 11.9). -/
def bindingOf (w : Nat) : Binding :=
  { valid := bit w 0, sender := bits w 28 4, receiver := bits w 24 4, juniorRx := bit w 23, partner := bits w 16 7 }

/-- Is a master code one of Table 11.8? -/
def masterKnown (m : Nat) : Bool := [1, 2, 4, 5, 6, 7].contains m

/-- May a valid entry stand in a table (R302)? -/
def bindingOk (t : Nat → Binding) (c : Nat) : Bool :=
  let b := t c
  let p := t b.partner
  !b.valid || (masterKnown b.sender && masterKnown b.receiver && b.sender != b.receiver
    && (b.partner == 0x7F || (decide (b.partner < 64) && p.valid && p.partner == c
      && p.sender == b.receiver && p.receiver == b.sender && p.juniorRx != b.juniorRx)))

/-- A channel of a bank in banked mode (Table 11.10); `host`: the bank's host master. The host is junior. -/
def bankedChannel (host c : Nat) : Binding :=
  let down (device d : Nat) : Binding := { valid := true, sender := host, receiver := device, juniorRx := false, partner := d }
  let up (device d : Nat) : Binding := { valid := true, sender := device, receiver := host, juniorRx := true, partner := d }
  if c < 8 then down 5 (c + 8)
  else if c < 16 then up 5 (c - 8)
  else if c < 20 then down 7 (c + 4)
  else if c < 24 then up 7 (c - 4)
  else if c < 26 then down 6 (c + 2)
  else if c < 28 then up 6 (c - 2)
  else if c = 28 ∧ host = 1 then down 4 29
  else if c = 29 ∧ host = 1 then up 4 28
  else {}

def bankedBinding (c : Nat) : Binding :=
  if c < 32 then bankedChannel 1 c
  else
    let b := bankedChannel 2 (c - 32)
    if b.valid then { b with partner := b.partner + 32 } else b

/-- The bindings that the dictionary states; none: the table is refused (R301, R302). -/
def State.bindings (s : State) : Option (Nat → Binding) :=
  if s.num 0x9000 1 = 1 then some bankedBinding
  else
    let t (c : Nat) : Binding := bindingOf (s.blk 0x9001 0 (4 * c) 4)
    if (List.range 64).all (bindingOk t) then some t else none

def State.checkBinding (s : State) : State := if s.bindings.isSome then s else s.raise 0x1AD 8

/-- The binding in force from the end of the first boot after a cold reset, and until the next cold boot (R301). -/
def State.bind (s : State) : State :=
  if s.mbox.fixed then s else
  let t := match s.bindings with
    | some t => (List.range 64).foldl (fun l c => tset {} l c (t c)) []
    | none => []
  { s with mbox := { s.mbox with binding := t, fixed := true } }

/-! ### Steps 10 and 11 -/

/-- Each group whose image verified is released. -/
def State.releaseGroups (s : State) : State :=
  (List.range 3).foldl (fun (s : State) g => if s.verified (groupImage g) then s.release g else s) s

/-- An anchor that the roster names, or the anchor of a roster that names none yet, begins to beacon under the next epoch (13
R346, R347). -/
def State.startAnchor (s : State) : State :=
  let names62 := s.rosterNamed 62
  if (s.domainRole == 2 && !names62) || (s.domainRole == 3 && names62) then
    let e := s.dom.highest.toNat + 1
    { s with dom := { s.dom with highest := BitVec.ofNat 32 e, beaconing := true } }.setAnchor s.node e
  else s

/-- Step 11: 0x1103.00 reads true, the slices run, and the boot event is raised. -/
def State.bootComplete (s : State) : State :=
  let s := (s.setVal 0x1103 0 [1]).bind
  let s := ((List.range 4).foldl (fun (s : State) i => if s.slicePolicy i = 3 then s else s.putSlice i .run) s).fillHands
  let s := { s with boot := { s.boot with state := .complete } }
  ((s.startAnchor).bootEvent (1 + flagIf s.boot.imageBad 1)).startReports.trainManagement

/-- The step in progress ends. -/
def State.bootStep (s : State) (r : BootResult) : State :=
  match s.boot.step with
  | 1 => s.bootFuses r
  | 5 => s.bootDirectories r
  | 7 => s.bootMemory r
  | n =>
    if r ≠ .done then s
    else match n with
      | 2 => s.bootRail
      | 3 => s.bootLeaf
      | 4 => s.flashReset.nextStep
      | 6 => s.bootStarter
      | 8 => s.bootImages
      | 9 => (s.applyImage.checkBinding).nextStep
      | 10 => s.releaseGroups.nextStep
      | 11 => s.bootComplete
      | _ => s

/-- BOOT_STEP_DONE: a step of R395 ends, with the result that its hardware shows. -/
def execBootStepDone (t : Nat) (r : BootResult) (s : State) : Result :=
  s.runNv t fun s => if s.boot.state == .booting then s.bootStep r else s

/-! ### The update of the flash (R398) -/

/-- A set with the GENERATION given in its directory, and its CRC. -/
def withGeneration (d : List Byte) (g : Nat) : List Byte :=
  let d := splice d 4 (leBytes 4 g)
  splice d 4092 (leBytes 4 (crc32c (Machine.slice d 0 4092)))

/-- FLASH_UPDATE_DONE: the set is programmed and read back, and its directory written last, and the next boot uses it; or the
flash failed, and the set that was erased for it is lost (R398). -/
def execFlashUpdateDone (t : Nat) (ok : Bool) (s : State) : Result :=
  s.runNv t fun s =>
    match s.boot.updating with
    | none => s
    | some d =>
      let b := s.boot
      if ok then
        let generation := (dirGeneration (s.nv.flashSet (1 - b.otherSet)) + 1) % 2 ^ 32
        State.bootEvent { s with
          nv := s.nv.program b.otherSet (withGeneration d generation)
          ao := { s.ao with generation := some generation }
          boot := { b with update := 2, updating := none } } 16
      else State.bootEvent { s with nv := s.nv.erase b.otherSet, boot := { b with update := 4, updating := none } } 32

end Sys2Proof.Machine
end

