-- ==== Sys2Proof/Machine/FlowCommands.lean ====
section
/-! DEFINITION. The flow commands, the aging sweep and the host's view of the flow table (05 R130 to R140; 06 R161, R163;
10 R271, R272). -/
namespace Sys2Proof.Machine

/-! ### Records -/

/-- The slot and head of the record that owns a tail. -/
def State.recordOf (s : State) (t : Nat) : Option (Nat × BitVec 512) :=
  (s.slotOfTail t).map fun x => (x, s.headAt x)

/-- An expiry notice (11 Table 11.5): kind 1 expiry, 2 active, 3 forced. -/
def State.noticeBytes (s : State) (t kind : Nat) (h : BitVec 512) : List Byte :=
  leBytes 64 h.toNat ++ leBytes 64 (tget s.flow.tails t 0).toNat ++ leBytes 4 t ++ [byte kind, 0, 0, 0] ++ leBytes 8 s.ns0
    ++ leBytes 112 0

def noticeLimit : Nat := 65536
def State.notice (s : State) (t kind : Nat) (h : BitVec 512) : State :=
  { s with flow.notices := s.flow.notices ++ [s.noticeBytes t kind h] }

/-- The timeout entry of a connection-tracking state (Table 6.8); none in state NONE. -/
def ctTimeoutSub (ct : Nat) : Option Nat :=
  if 1 ≤ ct ∧ ct ≤ 7 then some ct else if ct = 16 then some 8 else if ct = 17 then some 9 else none

/-- The timeout of a record, µs (05 R130, 06 R161). -/
def State.recordTimeout (s : State) (h v : BitVec 512) : Nat :=
  let idle := Pol.idle (s.policyEntry (Hd.policy h)) * 1000
  match ctTimeoutSub (Tl.ct v) with
  | some k => if s.num 0x3300 k = 0 then idle else s.num 0x3300 k / 1000
  | none => idle

/-- Is a record expired (05 R130)? -/
def State.recordExpired (s : State) (h v : BitVec 512) : Bool :=
  !Hd.pin h && !Hd.poison h && Pol.idle (s.policyEntry (Hd.policy h)) != 0
    && decide (s.recordTimeout h v ≤ (s.us40 + 2 ^ 40 - Tl.lastSeen v) % 2 ^ 40)

/-! ### The aging sweep (05 R130 to R132; 06 R163) -/

/-- An active notice of a live record, skipped while the expiry queue is more than half full. -/
def State.activeNotice (s : State) (t : Nat) (h : BitVec 512) : State :=
  let k := s.num 0x3500 1
  let pass := s.flow.passes.toNat + 1
  if Hd.exports h && !Hd.poison h && k != 0 && pass % max 1 k == 0 then
    if 2 * s.flow.notices.length > noticeLimit then
      (s.count Num.skippedNotices).raise 0x19D 1 (capture [(4, pass)])
    else (s.notice t 2 h).count Num.activeNotices
  else s

/-- The decision on an expired record: deletion, a notice with EXPIRING, or a stall at a full queue. -/
def State.expire (s : State) (t x : Nat) (h : BitVec 512) : State :=
  if !Hd.exports h then (s.deleteTail t 1).count Num.flowAgeOuts
  else if Hd.state h = 1 then s
  else if s.flow.notices.length ≥ noticeLimit then
    { (s.count Num.sweepStalls).raise 0x196 1 (capture [(4, t)]) with flow.stalled := some t }
  else ((s.setHead x (setFld h 3 2 1)).notice t 1 (setFld h 3 2 1)).count Num.expiryNotices

/-- The sweep's place moves past a tail; past the last tail in use the pass is complete and the next begins. -/
def State.sweepPast (s : State) (t : Nat) : State :=
  if s.flow.backmap.any fun e => decide (t < e.1) then { s with flow.sweep := t + 1 }
  else { s with flow := { s.flow with sweep := 0, passes := s.flow.passes + 1 } }

/-- The tail the sweep visits next: a free tail owns no head, and its visit changes nothing. -/
def State.sweepNext (s : State) : Option (Nat × BitVec 32) := s.flow.backmap.find? fun e => decide (s.flow.sweep ≤ e.1)

/-- One visit of tail `t`, whose read of head and tail found `r`. -/
def State.sweepAt (s : State) (t : Nat) (r : FlowRead) : State :=
  match s.recordOf t with
  | none => s
  | some (x, h) =>
    if eccBad r.ecc then s.poisonHead x r true
    else
      let s := s.poisonHead x r true
      let s := s.activeNotice t h
      if s.recordExpired h (tget s.flow.tails t 0) then s.expire t x h else s

/-- SWEEP_VISIT: the sweep visits the next tail (R130): an expired record is deleted or exported. -/
def execSweepVisit (t : Nat) (r : FlowRead) (s : State) : Result :=
  s.runPipe t fun s =>
    if !s.locked .memory then s else
    if !s.learningRuns || s.flow.stalled.isSome then s
    else match s.sweepNext with
      | none => s.sweepPast tailCount
      | some (n, _) =>
        let s := (s.noteFlight 1).sweepAt n r
        if s.flow.stalled.isSome then s else s.sweepPast n

/-- SWEEP_RESUME: a notice has left the queue, and the stalled sweep goes on at its record (R132), once the memory controllers run
(14 R359). -/
def execSweepResume (t : Nat) (s : State) : Result :=
  s.run t fun s =>
    if !s.locked .memory then s else
    match s.flow.stalled with
    | some n =>
      if s.flow.notices.length < noticeLimit && s.learningRuns then
        let s := { s with flow.stalled := none }
        let s := match s.recordOf n with
          | some (x, h) => if s.recordExpired h (tget s.flow.tails n 0) then s.expire n x h else s
          | none => s
        s.sweepPast n
      else s
    | none => s

/-! ### Commands (05 R137 to R140, Tables 5.8, 5.9)

Each acts on the registers as the unit accepted them, the job `j`; records are read from memory, where error correction may find
what the job carries (R133). -/

/-- SEARCH: head, tail and tail index of a key. -/
def State.flowSearch (s : State) (j : FlowJob) : State :=
  if Ky.bad j.key then s.flowDone 4
  else
    let s := s.meetWords j.found (s.slotsRead (s.findHead j.key) j.key)
    match s.findHead j.key with
    | some (_, h) =>
      let s := { s with flow := { s.flow with headReg := h, tailReg := tget s.flow.tails (Hd.tail h) 0 } }
      (s.setIndex (Hd.tail h)).flowDone 0
    | none => s.flowDone 1

/-- Scan of NEXT over the tails in use below `limit`: at most `n` records, and the first index not scanned (R139). -/
def State.flowScan (s : State) (keep : BitVec 512 → Bool) (limit : Nat) :
    Tab (BitVec 32) → Nat → List (Nat × BitVec 512) × Nat
  | [], _ => ([], limit)
  | (t, w) :: r, n =>
    if limit ≤ t then ([], limit)
    else
      let h := match backSlot w with | some x => s.headAt x | none => 0
      if bit w.toNat 31 && keep h then
        if n = 1 then ([(t, h)], t + 1)
        else
          let (l, c) := s.flowScan keep limit r (n - 1)
          ((t, h) :: l, c)
      else s.flowScan keep limit r n

/-- A slot of FLOW_NEXT_BUF. -/
def State.nextSlot (s : State) (t : Nat) (h : BitVec 512) : List Byte :=
  leBytes 64 h.toNat ++ leBytes 64 (tget s.flow.tails t 0).toNat ++ leBytes 4 t
    ++ leBytes 4 (tget s.flow.backmap t 0).toNat ++ leBytes 120 0

/-- The records of the tails in use from index `c` on, of NEXT: at most 16, and the first index not scanned. -/
def State.nextRecords (s : State) (byPolicy : Bool) (policy c : Nat) : List (Nat × BitVec 512) × Nat :=
  let keep (h : BitVec 512) := !byPolicy || Hd.policy h == policy
  s.flowScan keep (min tailCount (c + 4096)) (s.flow.backmap.filter fun e => decide (c ≤ e.1)) 16

/-- NEXT: up to 16 records from the cursor, which it advances (R139). What error correction finds counts of the records that the
scan passes. -/
def State.flowNext (s : State) (j : FlowJob) (byPolicy : Bool) (policy : Nat) : State :=
  let c := j.cursor
  if tailCount < c then s.flowDone 4
  else
    let stop := (s.nextRecords byPolicy policy c).2
    let passed := (s.flow.backmap.filter fun e => decide (c ≤ e.1 ∧ e.1 < stop)).filterMap fun e => backSlot e.2
    let s := s.meetWords j.found passed
    let (l, next) := s.nextRecords byPolicy policy c
    let buf := (l.map fun e => s.nextSlot e.1 e.2).flatten
    ({ s with flow := { s.flow with
        nextBuf := buf, cursor := BitVec.ofNat 27 next, count := BitVec.ofNat 5 l.length } }).flowDone 0

/-- Is a head one that an INSERT refuses with code 0x04? -/
def State.insertBad (s : State) (h : BitVec 512) : Bool :=
  Ky.bad (Hd.key h) || Hd.verdict h > 4 || Hd.redir h > 33 || Pol.ktype (s.policyEntry (Hd.policy h)) == 0

/-- INSERT: replaces a record's fields or places a new record (R138). -/
def State.flowInsert (s : State) (j : FlowJob) (initTail : Bool) (origin : Nat) : State :=
  if s.insertBad j.head then s.flowDone 4
  else
    let k := Hd.key j.head
    (s.meetWords j.found (s.slotsRead (s.findHead k) k)).runInsert j initTail origin

/-- DELETE: removes the record of a key, pinned and poisoned alike (R138). -/
def State.flowDelete (s : State) (j : FlowJob) : State :=
  if Ky.bad j.key then s.flowDone 4
  else
    let s := s.meetWords j.found (s.slotsRead (s.findHead j.key) j.key)
    match s.findHead j.key with
    | some (_, h) => ((s.deleteTail (Hd.tail h) 2).setIndex (Hd.tail h)).flowDone 0
    | none => s.flowDone 1

/-- The tail index that a job names, handed on when a record owns it. -/
def State.withTail (s : State) (j : FlowJob) (f : State → Nat → State) : State :=
  if tailCount ≤ j.cursor then s.flowDone 4
  else match s.slotOfTail j.cursor with
    | some x => f (s.meetWords j.found [x]) j.cursor
    | none => s.flowDone 1

/-- DELETE_TAIL: removes the record of a tail index (R138). -/
def State.flowDeleteTail (s : State) (j : FlowJob) : State :=
  s.withTail j fun s n => ((s.deleteTail n 2).setIndex n).flowDone 0

/-- RETIRE: deletes a record only if it is still EXPIRING (R131). -/
def State.flowRetire (s : State) (j : FlowJob) : State :=
  s.withTail j fun s n =>
    match s.recordOf n with
    | some (_, h) =>
      if Hd.state h = 1 then (((s.deleteTail n 3).count Num.retires).setIndex n).flowDone 0
      else (s.count Num.revivals).flowDone 5
    | none => s.flowDone 1

/-- FLUSH_MATCH: accepted, it walks the tails until FLUSH_MATCH_COMPLETE (R140). -/
def State.flushMatchStart (s : State) (j : FlowJob) : State := { s with flow.work := .flush j }.setIndex 0

/-- Does a flush take the record (R140)? Not one whose key cannot be read: KEYBAD matches no mask (DESIGN CHOICE, log entry
85). -/
def FlowJob.takes (j : FlowJob) (withPin byPolicy : Bool) (policy : Nat) (h : BitVec 512) : Bool :=
  Hd.valid h && !Hd.keybad h && Hd.key h &&& j.mask == j.key &&& j.mask
    && (!byPolicy || Hd.policy h == policy) && (withPin || !Hd.pin h)

/-- The walk comes to tail `t`: its progress shows in INDEX. -/
def State.flushAt (s : State) (j : FlowJob) (t : Nat) : State :=
  { s with flow.work := .flush { j with place := t } }.setIndex t

/-- The walk over tails: each match is removed, or set EXPIRING with a notice; it stops where the queue is full. A record that goes
through a notice counts neither as flushed, since it stays until it is retired, nor as an expiry (DESIGN CHOICE, log entry 95).
-/
def State.flushWalk (j : FlowJob) (withPin viaExport byPolicy : Bool) (policy : Nat) : List Nat → State → State
  | [], s => s.flushAt j tailCount
  | t :: r, s =>
    let s := match s.slotOfTail t with
      | some x => s.meetWords j.found [x]
      | none => s
    match s.recordOf t with
    | none => State.flushWalk j withPin viaExport byPolicy policy r s
    | some (x, h) =>
      if !j.takes withPin byPolicy policy h then State.flushWalk j withPin viaExport byPolicy policy r s
      else if viaExport then
        if s.flow.notices.length ≥ noticeLimit then s.flushAt j t
        else State.flushWalk j withPin viaExport byPolicy policy r
          ((s.setHead x (setFld h 3 2 1)).notice t 3 (setFld h 3 2 1))
      else State.flushWalk j withPin viaExport byPolicy policy r ((s.deleteTail t 4).count Num.flushedRecords)

/-- DELETE_SLOT: removes whatever a slot holds, with its tail when TAIL names one whose back map points there (R138). -/
def State.flowDeleteSlot (s : State) (j : FlowJob) : State :=
  let x := j.cursor
  let s := (s.finishMove x).meetWords j.found [x]
  let h := s.headAt x
  if !Hd.valid h then s.flowDone 1
  else if Hd.tail h < tailCount && s.slotOfTail (Hd.tail h) == some x then
    ((s.deleteTail (Hd.tail h) 2).setIndex (Hd.tail h)).flowDone 0
  else ((((s.setHead x 0).uncacheHead x)).setIndex Hd.noTail).flowDone 0

/-- Run a command: an OP that names none acts on nothing and completes with code 0x04 (Table 5.9). -/
def State.flowRun (s : State) (j : FlowJob) : State :=
  match j.cmd with
  | .search => s.flowSearch j
  | .next b n => s.flowNext j b n
  | .insert i o => s.flowInsert j i o
  | .delete => s.flowDelete j
  | .deleteTail => s.flowDeleteTail j
  | .retire => s.flowRetire j
  | .flush _ _ _ _ => s.flushMatchStart j
  | .deleteSlot => s.flowDeleteSlot j
  | .badOp => s.flowDone 4

/-- The job of a command, from the registers. -/
def State.flowJob (s : State) (c : FlowCmd) (found : List FlowRead) : FlowJob :=
  { cmd := c, cursor := s.flow.cursor.toNat, key := s.flow.key, mask := s.flow.mask, head := s.flow.headReg
    tail := s.flow.tailReg, found }

/-- A command starts unless one is in progress; COUNT is that of NEXT alone. Its memory transactions wait while the clock of the
memory controllers is gated (14 R359). -/
def State.flowStart (s : State) (c : FlowCmd) (found : List FlowRead) : State :=
  if s.flow.busy then s.flowOverrun
  else
    let j := s.flowJob c found
    let s := { s with flow := { s.flow with busy := true, count := 0 } }.noteFlight 0
    if s.locked .memory then s.flowRun j else { s with flow.work := .gated j }

/-- The origin of an INSERT (R138). -/
def insertOrigin (m : Master) : Nat := if m = .judges then 1 else 2

/-- FLOW_SEARCH. -/
def execFlowSearch (t : Nat) (a : FlowAccess) (s : State) : Result :=
  s.runBy a.m t fun s => s.flowStart .search a.found

/-- FLOW_NEXT. -/
def execFlowNext (t : Nat) (a : FlowAccess) (byPolicy : Bool) (policy : BitVec 10) (s : State) : Result :=
  s.runBy a.m t fun s => s.flowStart (.next byPolicy policy.toNat) a.found

/-- FLOW_INSERT. -/
def execFlowInsert (t : Nat) (a : FlowAccess) (initTail : Bool) (s : State) : Result :=
  s.runBy a.m t fun s => s.flowStart (.insert initTail (insertOrigin a.m)) a.found

/-- FLOW_DELETE. -/
def execFlowDelete (t : Nat) (a : FlowAccess) (s : State) : Result :=
  s.runBy a.m t fun s => s.flowStart .delete a.found

/-- DELETE_TAIL. -/
def execDeleteTail (t : Nat) (a : FlowAccess) (s : State) : Result :=
  s.runBy a.m t fun s => s.flowStart .deleteTail a.found

/-- RETIRE. -/
def execRetire (t : Nat) (a : FlowAccess) (s : State) : Result :=
  s.runBy a.m t fun s => s.flowStart .retire a.found

/-- FLUSH_MATCH. -/
def execFlushMatch (t : Nat) (a : FlowAccess) (withPin viaExport byPolicy : Bool) (policy : BitVec 10) (s : State) : Result :=
  s.runBy a.m t fun s => s.flowStart (.flush withPin viaExport byPolicy policy.toNat) a.found

/-- DELETE_SLOT. -/
def execDeleteSlot (t : Nat) (a : FlowAccess) (s : State) : Result :=
  s.runBy a.m t fun s => s.flowStart .deleteSlot a.found

/-- FLOW_BAD_OP: an OP that names no command. -/
def execFlowBadOp (t : Nat) (a : FlowAccess) (_op : BitVec 4) (s : State) : Result :=
  s.runBy a.m t fun s => s.flowStart .badOp a.found

/-! ### Queues toward the Judges (11 R296, R297) -/

/-- Does an exception's policy lie in the owner range of 0x9200.02 while the owner program was refused (11 R295)? -/
def State.ownerless (s : State) (policy : Nat) : Bool :=
  let range := s.num 0x9200 2
  3 ≤ s.proc.program && bits range 0 10 ≤ policy && policy ≤ bits range 16 10

/-- The record of the Judges' default handling: the key and policy of the exception, and the policy's FAIL verdict (11 R295);
its other fields are 0 (log entry 87). -/
def State.defaultHead (s : State) (r : List Byte) : BitVec 512 :=
  let policy := leAt r 40 2 % 1024
  let fail := Pol.fail (s.policyEntry policy)
  let h := setFld (setFld (0 : BitVec 512) 64 320 (leAt r 0 40)) 6 10 policy
  setFld (setFld h 384 3 fail) 387 6 (if fail = 2 then 32 else 0)

/-- JUDGE_EXCEPTION_TAKEN: RUNNING Judges take the oldest exception from its queue; the default handling of one in the owner
range of a refused program is an INSERT, for which the command unit must be free (R292, R295, R296). -/
def execJudgeExceptionTaken (t : Nat) (s : State) : Result :=
  s.run t fun s =>
    if !s.groupActs judgesGroup then s else
    match s.flow.exceptions with
    | [] => s
    | r :: rest =>
      let taken := { s with flow.exceptions := rest }
      if !s.ownerless (leAt r 40 2 % 1024) then taken
      else if s.flow.busy then s
      else { taken with flow.headReg := s.defaultHead r }.flowStart (.insert false (insertOrigin .judges)) []

/-- EXPIRY_NOTICE_TAKEN: RUNNING Judges take the oldest notice from the expiry queue (R130, R292). -/
def execExpiryNoticeTaken (t : Nat) (s : State) : Result :=
  s.run t fun s => if s.groupActs judgesGroup then { s with flow.notices := s.flow.notices.drop 1 } else s

/-! ### The host's view (05 R135, R136; 10 R269 to R272) -/

/-- HOST_ACC and HOST_ACC_ADDR record an access (10 R270): space 0 BAR0, 1 BAR2, 2 BAR4, 3 HDM. -/
def State.hostAcc (s : State) (flag space : Nat) (wr : Bool) (off : Nat) : State :=
  let s := { s with acc.hostAccAddr := BitVec.ofNat 32 (space * 2 ^ 30 + b1 wr * 2 ^ 29 + off % 2 ^ 29) }
  (s.count (Num.hostAccesses flag)).raise 0x1AA (2 ^ flag) (capture [(4, s.acc.hostAccAddr.toNat)])

/-- The device offset a host physical address reaches: the committed decoder that holds it (R271). -/
def State.hdmOffset (s : State) (addr : Nat) : Option Nat :=
  if !s.host.memEn || !(s.host.proto == .cxl) then none else
  match s.host.decoders.find? fun e => e.2.committed && decide (e.2.base ≤ addr) && decide (addr < e.2.base + e.2.size) with
  | some (d, e) => some (addr - e.base + d * 0x300000000)
  | none => none

/-- The 64 bytes of a line of the view (R135): a head, a tail, or sixteen back-map words. -/
def State.hdmLine (s : State) (off : Nat) : List Byte :=
  let n := off / 64
  if off < 0x200000000 then leBytes 64 (s.headAt n).toNat
  else if off < 0x300000000 then leBytes 64 (tget s.flow.tails (n - 2 ^ 27) 0).toNat
  else ((List.range 16).map fun i => leBytes 4 (tget s.flow.backmap ((off - 0x300000000) / 64 * 16 + i) 0).toNat).flatten

/-- What error correction found in the line read: the record is poisoned, or the memory event alone is raised. -/
def State.hdmEcc (s : State) (off : Nat) (ecc : Ecc) : State :=
  match ecc with
  | .good => s
  | .corrected => s.stackEvent off false false
  | _ =>
    let x := if off < 0x200000000 then some (off / 64)
      else if off < 0x300000000 then s.slotOfTail (off / 64 - 2 ^ 27)
      else none
    match x with
    | some x => if Hd.valid (s.headAt x) then s.poisonHead x { ecc := if off < 0x200000000 then ecc else .tail } false
        else s.stackEvent off true false
    | none => s.stackEvent off true false

/-- A read of the line at an offset returns it as it stands; an uncorrectable word is returned with poison (R135, R269). -/
def State.readLine (s : State) (off : Nat) (ecc : Ecc) : State :=
  let off := alignDown off 64
  let s := ((s.noteFlight 1).emit (.memData (eccBad ecc) (s.hdmLine off))).count Num.hdmReads
  s.hdmEcc off ecc

/-- HDM_READ: a CXL.mem read of the view; it waits while the clock of the memory controllers is gated (14 R359). -/
def execHdmRead (t : Nat) (addr : Nat) (ecc : Ecc) (s : State) : Result :=
  s.run t fun s =>
    match s.hdmOffset addr with
    | some off =>
      if s.dormant then s
      else if s.locked .memory then s.readLine off ecc
      else { s with flow.hdmWaits := s.flow.hdmWaits ++ [(off, ecc)] }
    | none => s

/-- The memory controllers run again: the reads of the host's view that waited are served, and the command that waited runs (14
R359). -/
def State.memoryResumes (s : State) : State :=
  let s := s.flow.hdmWaits.foldl (fun s r => s.readLine r.1 r.2) { s with flow.hdmWaits := [] }
  match s.flow.work with
  | .gated j => { s with flow.work := .none }.flowRun j
  | _ => s

/-- HDM_WRITE: discarded; completes with Cmp, recorded in FLOW_HDM_ADDR, and advances FLOW_HDM (R136). -/
def execHdmWrite (t : Nat) (addr : Nat) (s : State) : Result :=
  s.runAny t fun s =>
    match s.hdmOffset addr with
    | some off =>
      let s := { s with flow.hdmLine := BitVec.ofNat 29 (off / 64) }
      let s := (s.emit .memCmp).count Num.hdmWritesDiscarded
      s.raise 0x198 1 (capture [(4, s.flow.hdmLine.toNat)])
    | none => s

/-- HDM_MEMINV: answered with Cmp and no data (R272). -/
def execHdmMeminv (t : Nat) (addr : Nat) (s : State) : Result :=
  s.runAny t fun s => if (s.hdmOffset addr).isSome then s.emit .memCmp else s

/-- HDM_DORMANT_READ: while DORMANT, 64 bytes of 0xD0FF_D0FF repeated and no poison, recorded in HOST_ACC (R269). -/
def execHdmDormantRead (t : Nat) (addr : Nat) (s : State) : Result :=
  s.runAny t fun s =>
    match s.hdmOffset addr with
    | some off =>
      if s.dormant then
        let s := (s.emit (.memData false (List.replicate 16 (leBytes 4 0xD0FFD0FF)).flatten)).count Num.hdmDormantReads
        s.hostAcc 3 3 false (off / 64)
      else s
    | none => s

end Sys2Proof.Machine
end

