-- ==== Sys2Proof/Machine/FlowEnds.lean ====
section
/-! DEFINITION. The turns of the placement engine and of FLUSH_MATCH: where they end a flow command, the changes that the link
brought meanwhile are applied (05 R127, R128, R137, R140). -/
namespace Sys2Proof.Machine

/-- The insert takes its turn. It reads the slots that its key may stand in, and the heads in their other buckets that may move;
the words that error correction finds bad there poison their records first (R133). -/
def State.takeTurn (s : State) (i : Insert) (found : List FlowRead) : State :=
  let reads := s.candidates i.key ++ i.path.map Hop.src ++ i.path.map Hop.dst
  let slots := found.filterMap FlowRead.slot
  -- the search reads whatever head it reaches; at the turn of a planned chain only the chain's slots are read
  let s := s.meetWords found (if i.path.isEmpty then slots else reads)
  (s.insertTurn i).resumeInsert.drain

/-- FLOW_INSERT_PLACE: the insert of a key takes its turn: it places its head, plans a chain and starts its last move, or
fails at the chain limit (R127). -/
def execFlowInsertPlace (t : Nat) (turn : InsertTurn) (s : State) : Result :=
  s.runPipe t fun s =>
    if !s.locked .memory then s else
    match s.flow.inserts.find? fun i => i.key == turn.key && !i.live && s.insertServed i with
    | some i => s.takeTurn i turn.found
    | none => s

/-- RELOCATION_MOVE: the live move of an insert completes and its CAM entry retires; the insert goes on (R128). -/
def execRelocationMove (t : Nat) (turn : InsertTurn) (s : State) : Result :=
  s.runPipe t fun s =>
    if !s.locked .memory then s else
    match s.flow.inserts.find? fun i => i.key == turn.key && i.live with
    | some i =>
      match i.path with
      | m :: _ =>
        match s.flow.cam.find? fun c => c.src == m.src with
        | some c =>
          let s := s.retireMove c
          match s.flow.inserts.find? fun j => j.tail == i.tail with
          | some j => s.takeTurn j turn.found
          | none => s
        | none => s
      | [] => s
    | none => s

/-- FLUSH_MATCH_COMPLETE: the walk reaches the end; while the expiry queue is full it waits where it stands (R140). -/
def execFlushMatchComplete (t : Nat) (s : State) : Result :=
  s.run t fun s =>
    if !s.locked .memory then s else
    match s.flow.work with
    | .flush j =>
      match j.cmd with
      | .flush p e b n =>
        let ts := (s.flow.backmap.filter fun x => decide (j.place ≤ x.1)).map Prod.fst
        let s := State.flushWalk j p e b n ts s
        match s.flow.work with
        | .flush j => if j.place = tailCount then (s.flowDone 0).drain else s
        | _ => s
      | _ => s
    | _ => s

/-- PLL_RELOCK: its clocks resume; every FIFO and window stands as it stood, a frame still arriving in a full staging buffer is
lost (03 R63), what waited for the memory controllers goes on, and the port of a lane trains again (14 R359). -/
def execPllRelock (t : Nat) (pll : Pll) (s : State) : Result :=
  s.runAny t fun s =>
    if s.locked pll then s else
    let s := { s with pow.unlocked := s.pow.unlocked.filter (· ≠ pll) }
    let s := match pll with
      | .pipeline => (List.range 4).foldl State.markFull (s.shiftGaps (s.now - s.pow.gatedAt))
      | .memory => s.memoryResumes.drain
      | .lane n => match s.lanePort n with
        | some p => s.startTraining p
        | none => if 34 ≤ n.val && s.domainRole != 0 then s.trainLane n else s
      | _ => s
    s.raise 0x1B8 2 [byte (pllNumber pll)]

end Sys2Proof.Machine
end

