-- ==== Sys2Proof/Machine/Mailbox.lean ====
section
/-! DEFINITION. The mailbox commands (11 R303 to R310). -/
namespace Sys2Proof.Machine

/-- A denied access (R303): MB_DENY_INFO takes master, direction and channel, and MB_DENY advances. -/
def State.mbDeny (s : State) (master c : Nat) (wr : Bool) : State :=
  let info := master % 16 * 2 ^ 8 + b1 wr * 2 ^ 7 + c % 64
  let s := { s with mbox.denyInfo := BitVec.ofNat 12 info }
  (s.count Num.mbDenied).raise 0x1AC 1 (capture [(4, info)])

/-- Is the master the bound sender, or the bound receiver, of the channel? -/
def State.isSender (s : State) (master c : Nat) : Bool := (s.bound c).valid && (s.bound c).sender == master
def State.isReceiver (s : State) (master c : Nat) : Bool := (s.bound c).valid && (s.bound c).receiver == master

/-- Run an access of the sender, or deny it. -/
def State.asSender (s : State) (master c : Nat) (wr : Bool) (f : State → State) : State :=
  if s.isSender master c then f s else s.mbDeny master c wr
/-- Run an access of the receiver, or deny it. -/
def State.asReceiver (s : State) (master c : Nat) (wr : Bool) (f : State → State) : State :=
  if s.isReceiver master c then f s else s.mbDeny master c wr

/-- Does the receiver of the channel belong to a group that is not RUNNING (R307)? -/
def State.receiverStopped (s : State) (c : Nat) : Bool :=
  match masterGroup (s.bound c).receiver with
  | some g => !s.groupRuns g
  | none => false

/-- A post in the clock of a sender reset comes before it (R309): what it posted is an orphan, which a receiver reset of that
clock purges; what would acknowledge it at once is discarded. -/
def State.mbPostLate (s : State) (c : Nat) (tag : BitVec 16) (r : MbReset) : State :=
  let h := s.chan c
  if r.places ≥ 4 then (s.count (Num.mbDropped c)).mbSender c 2
  else
    let purging := h.purgedAt.any fun p => p.1 == s.now
    let m : MbMessage := { data := Machine.slice r.txbuf 0 64, tag, epoch := h.epoch - 1, orphan := true, at_ := s.now }
    let s := s.count (Num.mbPosts c)
    let h := { h with posts := h.posts + 1, resetAt := some { r with places := r.places + 1 } }
    if purging then (s.setChan c { h with purged := h.purged ++ [m] }).mbReceiver c 1
    else if s.receiverStopped c then
      ((s.setChan c { h with acked := h.acked + 1 }).count (Num.mbAutoAcks c 1)).mbSender c 1
    else ((s.setChan c { h with messages := h.messages ++ [m] }).mbReceiver c 1).mbNotify (s.bound c).receiver (0x140 + c)

/-- Post MB_TXBUF (R304, R307, R309). -/
def State.mbPost (s : State) (c : Nat) (tag : BitVec 16) : State :=
  let h := s.chan c
  match h.resetAt.filter fun r => r.at_ == s.now with
  | some r => s.mbPostLate c tag r
  | none =>
  if h.places + ((h.purgedNow s.now).filter MbMessage.orphan).length ≥ 4 then (s.count (Num.mbDropped c)).mbSender c 2
  else
    let h := { h with posts := h.posts + 1 }
    let s := s.count (Num.mbPosts c)
    let m : MbMessage := { data := Machine.slice h.txbuf 0 64, tag, epoch := h.epoch, at_ := s.now }
    if s.receiverStopped c && !(h.purgedAt.map Prod.fst = some s.now) then
      let s := s.setChan c { h with
        acks := h.acks ++ [{ tag, code := 0x00E2, auto := true }], acked := h.acked + 1 }
      (((s.count (Num.mbAutoAcks c 1)).mbSender c 1)).mbNotify (s.bound c).sender (0x100 + c)
    else if h.purgedAt.map Prod.fst = some s.now then
      -- the clock of a receiver reset: the post comes before it, and is purged (R309)
      let s := s.setChan c { h with
        acks := h.acks ++ [{ tag, code := 0x00E1, auto := true }], acked := h.acked + 1
        purgedAt := h.purgedAt.map fun p => (p.1, p.2 + 1), purged := h.purged ++ [m] }
      let s := ((s.count (Num.mbAutoAcks c 0)).mbReceiver c 1).mbSender c 1
      s.mbNotify (s.bound c).sender (0x100 + c)
    else
      let s := s.setChan c { h with messages := h.messages ++ [m] }
      (s.mbReceiver c 1).mbNotify (s.bound c).receiver (0x140 + c)

/-- Is an acknowledge of the oldest message `m` refused (R305)? -/
def ackBad (m : MbMessage) (tag code : BitVec 16) : Bool := m.tag != tag || code.toNat / 16 == 0x00E

/-- An acknowledge in the clock of a sender or a receiver reset comes before it (R309): it acknowledges what the reset purged or
made an orphan, and a sender reset discards it as it discards every acknowledge not read. -/
def State.mbAckLate (s : State) (c : Nat) (tag code : BitVec 16) : State :=
  let h := s.chan c
  let purging := h.purgedAt.any fun p => p.1 == s.now
  let reset := h.resetAt.filter fun r => r.at_ == s.now
  match if purging then h.purged else h.messages with
  | [] => (s.count (Num.mbRefusedAcks c)).mbReceiver c 2
  | m :: rest =>
    if ackBad m tag code then (s.count (Num.mbRefusedAcks c)).mbReceiver c 2 else
    let h := if purging then { h with purged := rest } else { h with messages := rest }
    let h := { h with resetAt := h.resetAt.map fun r => if r.at_ = s.now then { r with orphans := r.orphans - 1 } else r }
    let orphan := match reset with | some r => decide (0 < r.orphans) | none => m.orphan
    if orphan then ((s.setChan c h).recross c).count (Num.mbOrphanAcks c)
    else if reset.isSome then
      ((((s.setChan c { h with acked := h.acked + 1 }).recross c).count (Num.mbAcks c)).mbSender c 1)
    else
      let n := h.madeAt s.now
      let i := h.acks.length - n
      let h := { h with
        acks := h.acks.take i ++ [{ tag, code, auto := false }] ++ h.acks.drop (i + 1), purgedAt := some (s.now, n - 1) }
      (((s.setChan c h).uncount (Num.mbAutoAcks c 0)).count (Num.mbAcks c)).mbSender c 1

/-- Acknowledge the oldest outstanding message, or refuse (R305). -/
def State.mbAck (s : State) (c : Nat) (tag code : BitVec 16) : State :=
  let h := s.chan c
  if h.purgedAt.any (fun p => p.1 == s.now) || h.resetAt.any (fun r => r.at_ == s.now) then s.mbAckLate c tag code else
  match h.messages with
  | [] => (s.count (Num.mbRefusedAcks c)).mbReceiver c 2
  | m :: rest =>
    if ackBad m tag code then (s.count (Num.mbRefusedAcks c)).mbReceiver c 2
    else if m.orphan then ((s.setChan c { h with messages := rest }).recross c).count (Num.mbOrphanAcks c)
    else
      let s := s.setChan c { h with
        messages := rest, acks := h.acks ++ [{ tag, code, auto := false }], acked := h.acked + 1 }
      (((s.recross c).count (Num.mbAcks c)).mbSender c 1).mbNotify (s.bound c).sender (0x100 + c)

/-- Read MB_ACKCODE: the code of the oldest acknowledge, which the read removes (Table 11.11). -/
def State.mbAckRead (s : State) (c : Nat) : State :=
  let h := s.chan c
  match h.acks with
  | [] => s.emit (.regData (leBytes 4 0))
  | a :: rest => (s.setChan c { h with acks := rest }).emit (.regData (leBytes 4 a.code.toNat))

/-- The member number of a channel pair (16 R410): pairs in ascending order of their lower channel. -/
def State.pairIndex (s : State) (lower : Nat) : Nat :=
  (below lower fun c => (s.bound c).valid && decide (c < (s.bound c).partner) && decide ((s.bound c).partner < 64)).length

/-- Who accesses a mailbox as a master: the host as master 1 or 2 (Table 11.7), over its link alone (15 R388). -/
def mbMaster (master : BitVec 4) : Master := if master = 1 ∨ master = 2 then .host else .marshal

/-- Run an access of a master to a mailbox. -/
def State.runMb (s : State) (master : BitVec 4) (t : Nat) (f : State → State) : Result := s.runBy (mbMaster master) t f

/-- MB_POST: a write posts MB_TXBUF as a new message (R304). -/
def execMbPost (t : Nat) (master : BitVec 4) (c : Fin 64) (tag : BitVec 16) (s : State) : Result :=
  s.runMb master t fun s => s.asSender master.toNat c true fun s => s.mbPost c tag

/-- MB_ACK: a write acknowledges the oldest outstanding message (R305). -/
def execMbAck (t : Nat) (master : BitVec 4) (c : Fin 64) (tag code : BitVec 16) (s : State) : Result :=
  s.runMb master t fun s => s.asReceiver master.toNat c true fun s => s.mbAck c tag code

/-- MB_ACKCODE_READ: a read removes the oldest acknowledge and frees its place (R305). A denied read returns 0. -/
def execMbAckcodeRead (t : Nat) (master : BitVec 4) (c : Fin 64) (s : State) : Result :=
  s.runMb master t fun s =>
    if s.isSender master.toNat c then s.mbAckRead c
    else (s.mbDeny master.toNat c false).emit (.regData (leBytes 4 0))

/-- MB_RESET_TX: MB_RESET.TX resets the sender endpoint (R308). -/
def execMbResetTx (t : Nat) (master : BitVec 4) (c : Fin 64) (s : State) : Result :=
  s.runMb master t fun s => s.asSender master.toNat c true fun s => s.mbResetSender c

/-- MB_RESET_RX: MB_RESET.RX resets the receiver endpoint (R307). -/
def execMbResetRx (t : Nat) (master : BitVec 4) (c : Fin 64) (s : State) : Result :=
  s.runMb master t fun s => s.asReceiver master.toNat c true fun s => s.mbResetReceiver c

/-- MB_ACCESS_DENIED: any other access to a mailbox register is denied and recorded (R303): a read returns 0. -/
def execMbAccessDenied (t : Nat) (master : BitVec 4) (c : Fin 64) (wr : Bool) (s : State) : Result :=
  s.runMb master t fun s =>
    let s := s.mbDeny master.toNat c wr
    if wr then s else s.emit (.regData (leBytes 4 0))

/-- MB_CROSSING: a pair that becomes crossed advances MB_SSTATUS and MB_RSTATUS of both channels with CROSS, once (R310). -/
def execMbCrossing (t : Nat) (c : Fin 64) (s : State) : Result :=
  s.run t fun s =>
    if s.crossedNow c && !(s.chan c).crossed then
      let p := (s.bound c).partner
      let s := s.setChan c { s.chan c with crossed := true }
      let s := s.setChan p { s.chan p with crossed := true }
      let s := s.count (Num.mbCrossings (s.pairIndex (min c.val p)))
      let s := (s.mbSender c 4).mbReceiver c 4
      let s := (s.mbSender p 4).mbReceiver p 4
      [c.val, p].foldl (fun s k =>
        (s.mbNotify (s.bound k).sender (0x100 + k)).mbNotify (s.bound k).receiver (0x140 + k)) s
    else s

end Sys2Proof.Machine
end

