-- ==== Sys2Proof/Machine/HostSpace.lean ====
section
/-! DEFINITION. What the host finds outside BAR0 and BAR2: the features of Table 10.1, configuration space (10 R261, R266,
R267, Table 10.3), and the CXL component registers of BAR4 with the HDM decoders (10 R267, R271, R286; log entry 80). -/
namespace Sys2Proof.Machine

/-! ### Configuration space -/

/-- The features of Table 10.1 that have a capability, or a capable bit, in configuration space. -/
inductive Feature where
  | flexBus68 | cxlIo | cxlCache | cxlMem | singleLogical | multiLogical | switching | hotPlug
  | cxlReset | viral | gpf | testCapability | biasFlip | aer | ras | linkCapability | flr | msix
  | intx | msi | aspmL1 | l1Substates | l0s | ptm | ats | pasid | sriov | resizableBar | expansionRom | tenBitTags
  deriving DecidableEq, Repr

/-- Its capability is present; the others are absent, or 0 in their capable bit (R261). -/
def Feature.supported : Feature → Bool
  | .flexBus68 | .cxlIo | .cxlCache | .cxlMem | .singleLogical | .aer | .ras | .linkCapability | .flr | .msix
  | .aspmL1 | .tenBitTags => true
  | .multiLogical | .switching | .hotPlug | .cxlReset | .viral | .gpf | .testCapability | .biasFlip | .intx | .msi
  | .l1Substates | .l0s | .ptm | .ats | .pasid | .sriov | .resizableBar | .expansionRom => false

/-- The fields of configuration space that the manual names. -/
inductive CfgField where
  | capable (f : Feature)
  | vendorId | deviceId | revisionId | classCode | subsystemVendor | subsystemId
  /-- PCIe DVSEC for CXL Devices -/
  | memHwInit | hdmCount | range1Size | range2Size | memoryActive
  /-- Register Locator DVSEC: entries, BAR and offset of the component registers -/
  | locatorEntries | locatorBar | locatorOffset
  /-- what the host has set -/
  | barAddress (b : Bar) | barType (b : Bar) | aspmL1 | busMaster | cacheEnable | memEnable | functionMask
  | aerStatus | aerSeverity | aerCorrectable
  deriving DecidableEq, Repr

/-- Revision ID: 16 × (stepping letter − 0x41) + metal number. -/
def State.revisionId (s : State) : Nat := 16 * (s.num 0x1002 0 / 256 - 0x41) + s.num 0x1002 0 % 256

/-- The low four bits of a BAR: a memory BAR, 64-bit, not prefetchable (R267). -/
def barTypeBits : Nat := 0b0100

/-- Configuration offset of a BAR (R267). -/
def barOffset : Bar → Nat
  | .bar0 => 0x10 | .bar2 => 0x18 | .bar4 => 0x20

/-- The base address of a BAR. -/
def HostIf.barBase (h : HostIf) : Bar → BitVec 64
  | .bar0 => h.bar0 | .bar2 => h.bar2 | .bar4 => h.bar4

/-- The word of configuration space at an offset that holds a BAR; none: another offset. -/
def State.barConfigWord (s : State) (o : Nat) : Option Nat :=
  [Bar.bar0, .bar2, .bar4].findSome? fun b =>
    if o = barOffset b then some ((s.host.barBase b).toNat % 2 ^ 32 + barTypeBits)
    else if o = barOffset b + 4 then some ((s.host.barBase b).toNat / 2 ^ 32)
    else none

/-- What a configuration read returns of a field (Table 10.3, R266). -/
def State.cfg (s : State) : CfgField → Nat
  | .capable f => b1 f.supported
  | .vendorId => 0x1F57 | .deviceId => 0x3216 | .revisionId => s.revisionId | .classCode => 0x020000
  | .subsystemVendor => s.num 0x8002 1 | .subsystemId => s.num 0x8002 2
  | .memHwInit => 0 | .hdmCount => 2 | .range1Size => 12 * 2 ^ 30 | .range2Size => 2 ^ 28
  | .memoryActive => b1 s.bootDone
  | .locatorEntries => 1 | .locatorBar => 4 | .locatorOffset => 0
  | .barAddress b => (s.host.barBase b).toNat
  | .barType _ => barTypeBits | .aspmL1 => b1 s.host.aspmL1
  | .busMaster => b1 s.host.busMaster | .cacheEnable => b1 s.host.cacheEn | .memEnable => b1 s.host.memEn
  | .functionMask => b1 s.host.functionMask
  | .aerStatus => s.host.errors.aerStatus.toNat | .aerSeverity => s.host.errors.aerSeverity.toNat
  | .aerCorrectable => s.host.errors.aerCorrectable.toNat

/-! ### The component registers of BAR4 (CXL 2.0 8.2.5; log entry 80) -/

def rasBase : Nat := 0x1100
def linkBase : Nat := 0x1180
def hdmBase : Nat := 0x1200

/-- Interleave ways as the decoder control register codes them. -/
def waysCode (n : Nat) : Nat := if n = 1 then 0 else if n = 2 then 1 else if n = 4 then 2 else if n = 8 then 3 else 0xF

/-- A word of decoder `e` at offset `k` of its block: base, size, control with COMMITTED and Error Not Committed, skip. -/
def HdmDecoder.word (e : HdmDecoder) (k : Nat) : Nat :=
  match k with
  | 0x00 => e.base % 2 ^ 32 / 2 ^ 28 * 2 ^ 28 | 0x04 => e.base / 2 ^ 32 % 2 ^ 32
  | 0x08 => e.size % 2 ^ 32 / 2 ^ 28 * 2 ^ 28 | 0x0C => e.size / 2 ^ 32 % 2 ^ 32
  | 0x10 => waysCode e.ways * 16 + flagIf e.lockOnCommit 8 + flagIf (e.committed || e.errorNotCommitted) 9
      + flagIf e.committed 10 + flagIf e.errorNotCommitted 11
  | 0x14 => e.skip % 2 ^ 32 / 2 ^ 28 * 2 ^ 28 | 0x18 => e.skip / 2 ^ 32 % 2 ^ 32
  | _ => 0

/-- A word of BAR4: the capability headers, the RAS and link capabilities, the HDM decoders. -/
def State.componentWord (s : State) (o : Nat) : Nat :=
  let stored (d : Word) : Nat := (tget s.host.component o d).toNat
  if hdmBase + 0x10 ≤ o ∧ o < hdmBase + 0x50 then
    (s.decoder ((o - hdmBase - 0x10) / 0x20)).word ((o - hdmBase - 0x10) % 0x20)
  else match o with
    | 0x1000 => 0x03110001
    | 0x1004 => 0x10010002 | 0x1008 => 0x18020004 | 0x100C => 0x20010005
    | 0x1100 => s.host.errors.rasStatus.toNat | 0x110C => s.host.errors.rasCorrectable.toNat
    | 0x1104 | 0x1110 | 0x1204 => stored 0
    | 0x1108 => stored 0x0001CFFF
    | 0x1200 => 1
    | _ => if linkBase ≤ o ∧ o < linkBase + 0x38 ∨ rasBase + 0x14 ≤ o ∧ o < rasBase + 0x58
        then (Config.componentWord o).toNat else 0

/-- A write to a word of a decoder: its programming while it is not committed, and its control register. Clearing COMMIT ends a
decode that is not locked; setting it commits (R271). -/
def HdmDecoder.write (e : HdmDecoder) (d k w : Nat) : HdmDecoder :=
  if e.locked then e
  else if k = 0x10 then
    let e := if e.committed then e else { e with
      ways := match bits w 4 4 with | 0 => 1 | 1 => 2 | 2 => 4 | 3 => 8 | _ => 0
      lockOnCommit := bit w 8 }
    if !bit w 9 then { e with committed := false, errorNotCommitted := false }
    else if e.committed then e else e.commit d
  else if e.committed then e
  else match k with
    | 0x00 => { e with base := setBits e.base 0 32 (w / 2 ^ 28 * 2 ^ 28) }
    | 0x04 => { e with base := setBits e.base 32 32 w }
    | 0x08 => { e with size := setBits e.size 0 32 (w / 2 ^ 28 * 2 ^ 28) }
    | 0x0C => { e with size := setBits e.size 32 32 w }
    | 0x14 => { e with skip := setBits e.skip 0 32 (w / 2 ^ 28 * 2 ^ 28) }
    | 0x18 => { e with skip := setBits e.skip 32 32 w }
    | _ => e

/-- A write to a word of BAR4: the error status registers clear where 1 is written, and the read-only words stay. -/
def State.writeComponent (s : State) (o w : Nat) : State :=
  let v := BitVec.ofNat 32 w
  if hdmBase + 0x10 ≤ o ∧ o < hdmBase + 0x50 then
    let d := (o - hdmBase - 0x10) / 0x20
    s.setDecoder d ((s.decoder d).write d ((o - hdmBase - 0x10) % 0x20) w)
  else match o with
    | 0x1100 => { s with host.errors.rasStatus := s.host.errors.rasStatus &&& ~~~v }
    | 0x110C => { s with host.errors.rasCorrectable := s.host.errors.rasCorrectable &&& ~~~v }
    | 0x1104 | 0x1108 | 0x1110 | 0x1204 => { s with host.component := tput s.host.component o v }
    | _ => s

end Sys2Proof.Machine
end

