-- ==== Sys2Proof/Machine/Report.lean ====
section
/-! DEFINITION. Event status words, the counter snapshot with its freeze and dump, slow domains, dark blocks, accesses that
are not ordinary, and the rings that the split log and the IPFIX export use (02 R44 to R52; 10 R269; 16 R413 to R418; 06
R163). -/
namespace Sys2Proof.Machine

/-! ### Status words (02 R45, R46) -/

/-- A write to a status word: an advance that is due comes first, and PEND and FLAGS clear only for the current SEQ, which is
not 0, and not in the clock of an event, which comes first (R45; log entry 93). -/
def State.statusClear (s : State) (n : Nat) (value : Word) : State :=
  let s := closeHoldOff (raiseN 4 s.dormant) s.dormant n s
  let e := s.source n
  if e.seq ≠ 0 ∧ value.toNat / 2 ^ 16 = e.seq.toNat ∧ e.eventAt ≠ some s.now then
    s.setSource n { e with pend := false, flags := 0, cleared := some (s.now, e.flags ||| e.taken s.now) }
  else s

/-- The source whose status word DORMANT serves (02 R52). -/
def evDark : Nat := 0x180

/-- STATUS_CLEAR. -/
def execStatusClear (t : Nat) (n : Fin 1024) (value : BitVec 32) (s : State) : Result :=
  s.runAny t fun s => if s.dormant && n.val != evDark then s else s.statusClear n value

/-- HOLD_OFF_END: at the end of a hold-off in which an event fell, SEQ advances with the flags of all of them (R46). -/
def execHoldOffEnd (t : Nat) (n : Fin 1024) (s : State) : Result :=
  s.runAny t fun s =>
    if s.dormant && n.val != evDark then s else closeHoldOff (raiseN 4 s.dormant) s.dormant n s

/-! ### Snapshots (02 R47, R48; 16 R413 to R415) -/

/-- A snapshot command: dropped with OVERRUN while BUSY, else accepted, which clears OVERRUN; a cut disarms a
freeze. -/
def State.snapCommand (s : State) (f : State → State) : State :=
  if s.cnt.phase != .idle then { s with cnt.overrun := true }
  else f { s with cnt.overrun := false }

def State.snapshot (s : State) : State := s.snapCommand fun s => s.cut false false
def State.snapshotDump (s : State) : State := s.snapCommand fun s => s.cut false true
def State.freezeArm (s : State) : State := s.snapCommand fun s =>
  { s with cnt := { s.cnt with armed := true, rearmed := if s.cnt.armed then some s.now else s.cnt.rearmed } }

/-- SNAPSHOT: CMD 0b01. -/
def execSnapshot (t : Nat) (s : State) : Result := s.run t State.snapshot
/-- SNAPSHOT_DUMP: CMD 0b10. -/
def execSnapshotDump (t : Nat) (s : State) : Result := s.run t State.snapshotDump
/-- SNAPSHOT_FREEZE_ARM: CMD 0b11. -/
def execSnapshotFreezeArm (t : Nat) (s : State) : Result := s.run t State.freezeArm

/-- SNAPSHOT_COMPLETE: the bank flips, NUMBER advances, SNAP_TIME holds the cut, and the event is raised; a dump that was
asked for begins, or fails for want of a base or of Bus Master Enable. -/
def execSnapshotComplete (t : Nat) (s : State) : Result :=
  s.run t fun s =>
    match s.cnt.phase with
    | .copying freeze dump =>
      let c := s.cnt
      let s : State := { s with cnt := { c with
        bank := !c.bank, number := c.number + 1, snapTime := c.cutTime, phase := if dump then .dumping else .idle
        dumpAt := if dump then c.dumpBase else c.dumpAt } }
      let s := s.snapEvent (1 + flagIf freeze 1)
      if dump && (s.cnt.dumpBase == 0 || !s.hostUp) then s.dumpFails else s
    | _ => s

/-- DUMP_COMPLETE: every counter of the current bank stands in host memory as a U64 (R413). -/
def execDumpComplete (t : Nat) (s : State) : Result :=
  s.run t fun s =>
    if s.cnt.phase != .dumping then s else
    let s := s.emit (.dma s.cnt.dumpAt (s.cnt.dumpBytes counterNumbers))
    ({ s with cnt.phase := .idle }.count Num.dumpsDone).snapEvent 4

/-- The counter that CNT_SEL selects, in the current bank. -/
def State.selected (s : State) : Nat := counterRead s.cnt.current s.cnt.sel.toNat

/-- CNT_DATA_HI_READ: bits [47:32] of the selected counter; CNT_SEL advances by one (R48). -/
def execCntDataHiRead (t : Nat) (m : Master) (s : State) : Result :=
  s.runBy m t fun s => { s with cnt.sel := s.cnt.sel + 1 }.emit (.regData (leBytes 4 (s.selected / 2 ^ 32)))

/-! ### Slow domains (02 R49, R50) -/

/-- Bit of a domain in SLOW_BUSY and SLOW_DROP. -/
def slowBit : SlowDomain → Nat
  | .ao => 0
  | .port i => 1 + i.val

/-- Does a slow domain answer: in DORMANT the always-on domain alone? -/
def State.slowAwake (s : State) (d : SlowDomain) : Bool := d == .ao || !s.dormant

/-- SLOW_DOMAIN_WRITE: posted, or dropped and recorded while the domain is busy. A write to an identity register is discarded
without any status or event (00 R6; 10 Table 10.6). -/
def execSlowDomainWrite (t : Nat) (m : Master) (dom : SlowDomain) (off : BitVec 25) (value : BitVec 32) (s : State) : Result :=
  s.runAny t fun s =>
    if !s.hears m || !s.slowAwake dom || decide (off.toNat < 0xC) then s
    else if (tfind s.acc.slow (slowBit dom)).isSome then
      { s with acc.slowDropAddr := off }.raise 0x181 (2 ^ slowBit dom)
    else { s with acc.slow := tput s.acc.slow (slowBit dom) { off, value } }

/-- A posted write takes effect: SLOW_BUSY clears. The manual gives no register of these domains that a write changes: the
identity registers are read-only (log entry 20). -/
def State.slowSettle (s : State) (d : SlowDomain) : State := { s with acc.slow := tdel s.acc.slow (slowBit d) }

/-- SLOW_WRITE_TAKES_EFFECT. -/
def execSlowWriteTakesEffect (t : Nat) (dom : SlowDomain) (s : State) : Result :=
  s.runAny t fun s => if s.slowAwake dom then s.slowSettle dom else s

/-! ### Dark blocks (02 R51, R52; 10 R283) -/

/-- The source of an access in DARK_ADDR. -/
def darkSource : Master → Nat
  | .host => 0 | .starter => 2 | _ => 1

def barCode : Bar → Nat
  | .bar0 => 0 | .bar2 => 1 | .bar4 => 2

/-- A register that no state makes dark: the identity registers, DARK_STATUS and DARK_ADDR (00 R7; 02 R52). -/
def neverDark (bar : Bar) (off : Nat) : Bool := bar == .bar0 && (decide (off < 0xC) || off / 8 == 0x20)

/-- Is the register at an offset dark? No BAR register lies in a slice, a port domain, a group or the Sallar block, so that is
DORMANT alone. -/
def State.dark (s : State) (bar : Bar) (off : Nat) : Bool := s.dormant && !neverDark bar off

/-- DARK_ADDR and DARK_STATUS record an access. -/
def State.darkAccess (s : State) (m : Master) (bar : Bar) (off : Nat) (wr : Bool) : State :=
  let a := barCode bar * 2 ^ 28 + darkSource m * 2 ^ 26 + b1 wr * 2 ^ 25 + off % 2 ^ 25
  { s with acc.darkAddr := BitVec.ofNat 30 a }.raise evDark (if wr then 2 else 1)

/-- DARK_READ: 0xD0FF_D0FF in each 32-bit half. -/
def execDarkRead (t : Nat) (m : Master) (bar : Bar) (off : BitVec 25) (halves : Fin 17) (s : State) : Result :=
  s.runAny t fun s =>
    if s.hears m && s.dark bar off.toNat then
      (s.darkAccess m bar off.toNat false).emit (.regData (List.replicate halves.val (leBytes 4 0xD0FFD0FF)).flatten)
    else s

/-- DARK_WRITE: discarded. -/
def execDarkWrite (t : Nat) (m : Master) (bar : Bar) (off : BitVec 25) (s : State) : Result :=
  s.runAny t fun s => if s.hears m && s.dark bar off.toNat then s.darkAccess m bar off.toNat true else s

/-! ### The split log and the IPFIX export (16 R418; 06 R163) -/

def splitRing : Nat := 33

/-- SPLIT_LOG_MOVE: the oldest sample moves into log ring 33 as eight entries, then RING_DEV advances by 8. -/
def execSplitLogMove (t : Nat) (s : State) : Result :=
  s.run t fun s =>
    match s.split.log with
    | [] => s
    | x :: rest =>
      let g := s.ring splitRing
      if !g.logRoom 8 then s else
      let s := s.emits ((List.range 8).map fun i => .dma (g.addr (g.dev.toNat + i)) (Machine.slice x (32 * i) 32))
      let s := { s with split.log := rest }
      let s := (s.setRing splitRing { g with dev := g.dev + 8 }).count (Num.logWritten (splitRing - 32)) 8
      (List.range 8).foldl (fun s _ => s.complete splitRing) s

/-- The field specifiers of a template (RFC 7011): an enterprise-specific one carries the number of 0x3500.02, and there is
none while that is 0. -/
def fieldsFit (enterprise : Nat) : Nat → List Byte → Option (List Byte)
  | 0, b => some b
  | n + 1, b =>
    if b.length < 4 then none
    else if byteAt b 0 < 128 then fieldsFit enterprise n (b.drop 4)
    else if enterprise ≠ 0 && decide (8 ≤ b.length) && beAt b 4 4 == enterprise then fieldsFit enterprise n (b.drop 8)
    else none

/-- The template records of a set: templates 256 to 258 alone (06 R163). The fuel is the number of bytes. -/
def templatesFit (enterprise : Nat) : Nat → List Byte → Bool
  | 0, _ => true
  | n + 1, b =>
    if b.length < 4 then true else
    decide (256 ≤ beAt b 0 2) && decide (beAt b 0 2 ≤ 258) &&
      match fieldsFit enterprise (beAt b 2 2) (b.drop 4) with
      | some rest => templatesFit enterprise n rest
      | none => false

/-- The sets of a message: template sets, and data sets of templates 256 to 258. -/
def setsFit (enterprise : Nat) : Nat → List Byte → Bool
  | 0, _ => true
  | n + 1, b =>
    if b.length < 4 then b.isEmpty else
    let id := beAt b 0 2
    let len := beAt b 2 2
    decide (4 ≤ len) && decide (len ≤ b.length)
      && (if id = 2 then templatesFit enterprise len ((b.take len).drop 4) else decide (256 ≤ id) && decide (id ≤ 258))
      && setsFit enterprise n (b.drop len)

/-- Does a frame carry an IPFIX message as R163 has Judge firmware compose it: UDP to the collector of 0x3500.03 at its port,
version 10, its observation domain, and sets of templates 256 to 258? -/
def State.ipfixFits (s : State) (frame : List Byte) : Bool :=
  let c := readAll s.active 0x3500 3 44
  let l := (parseFrame s.parseCfg frame none false).outer
  let address := if l.l3 = 1 then 0xFFFF * 2 ^ 32 + l.dip else l.dip
  let message := frame.drop (l.l4off + 8)
  l.ip && l.proto == 17 && address == beAt c 0 16 && l.dport == beAt c 32 2
    && beAt message 0 2 == 10 && beAt message 12 4 == beAt c 40 4 && decide (16 ≤ beAt message 2 2)
    && setsFit (s.num 0x3500 2) message.length ((message.take (beAt message 2 2)).drop 16)

/-- IPFIX_MESSAGE_SEND: Judge firmware sends a message as a frame that enters through P33, as the
Marshal schedules it (11 R292). A collector that is all 0 disables export. -/
def execIpfixMessageSend (t : Nat) (frame : List Byte) (s : State) : Result :=
  s.run t fun s =>
    let exports := (readAll s.active 0x3500 3 44).any (· != 0)
    if s.groupActs judgesGroup && s.groupActs marshalGroup && exports && s.ipfixFits frame then s.recirculate frame false else s

end Sys2Proof.Machine
end

