-- ==== Sys2Proof/Machine/Regs.lean ====
section
/-! DEFINITION. Every register of the BARs by its offset: what a read shows and what a write does (18 R453, R457, R458,
Tables 18.4, 18.5; 02 Tables 2.2, 2.8 to 2.11; 03 Table 3.7; 04 Table 4.5; 05 Table 5.10; 08 Table 8.5; 10 Tables 10.5 to
10.10; 11 Tables 11.11, 11.12; 16 Tables 16.2, 16.6). -/
namespace Sys2Proof.Machine

/-! ### Which offsets are registers (18 R457) -/

/-- Is a 4-byte word of a BAR a register, or a reserved word of a block that its chapter lays out? -/
def barAssigned (bar : Bar) (o : Nat) : Bool :=
  let within (lo n : Nat) : Bool := decide (lo ≤ o) && decide (o < lo + n)
  match bar with
  | .bar0 =>
    within 0 0xC || within 0x100 0x14 || within 0x120 0x20 || within 0x200 0xC
      || within 0x10000 0xC || within 0x10100 0x90
      || within 0x11000 0x2C || within 0x11030 8 || within 0x11100 0x400
      || within 0x12000 0x14 || within 0x12018 8 || within 0x12100 0x28 || within 0x12140 0x28 || within 0x12180 0x80
      || within 0x13000 0x1000 || within 0x14000 0x1C
      || (within 0x20000 (64 * 36) && decide (o % 64 < 0x20))
      || ((within 0x30000 (256 * 64) || within 0x38000 (256 * 64))
        && (decide (o % 256 < 0x54) || (decide (0x80 ≤ o % 256) && decide (o % 256 < 0xD4))))
      || within 0x3F000 8 || within 0x40000 0x8000 || within 0x48000 0x1000 || within 0x4A000 0x80 || within 0x4C000 0xC
  | .bar2 =>
    within 0 0x18 || within 0x1000 0x1000 || within 0x10000 0x18 || within 0x11000 0x1000 || within 0x20000 0x8100
  | .bar4 => within 0 0x10000

/-- The buffer regions, which take up to 64 bytes in one request (10 R268). -/
def barBuffer (bar : Bar) (o : Nat) : Bool :=
  let within (lo n : Nat) : Bool := decide (lo ≤ o) && decide (o < lo + n)
  match bar with
  | .bar0 => within 0x10100 0x90 || within 0x11100 0x400 || within 0x12100 0x100 || within 0x13000 0x1000
  | .bar2 => within 0x1000 0x1000 || within 0x11000 0x1000
  | .bar4 => false

/-- Size and alignment that a BAR accepts (10 R268); R268 says nothing of the component registers, which take any (log entry
21). -/
def barSize (bar : Bar) (off n : Nat) : Bool :=
  bar == .bar4 || (n == 4 && off % 4 == 0) || (n == 8 && off % 8 == 0)
    || (n % 4 == 0 && decide (0 < n) && off % 4 == 0 && decide (off % 64 + n ≤ 64)
      && (List.range (n / 4)).all fun i => barBuffer bar (off + 4 * i))

/-! ### Masters (11 Table 11.8) -/

/-- The identity under which a mailbox alias sees a master; the host's is that of the alias. -/
def mailboxMaster (m : Master) (secureAlias : Bool) : Nat :=
  match m with
  | .host => if secureAlias then 1 else 2
  | .starter => 4 | .marshal => 5 | .timekeepers => 6 | .judges => 7

/-! ### Reads -/

/-- A word of a byte buffer. -/
def wordAt (bs : List Byte) (o : Nat) : Nat := leAt bs o 4
/-- A word of a wide register. -/
def wordOf (v o : Nat) : Nat := bits v (8 * o) 32

/-- RING registers (10 Table 10.10), RING_STATUS apart. -/
def Ring.word (g : Ring) (o : Nat) : Nat :=
  match o with
  | 0x00 => g.baseLo.toNat * 2 ^ 12 | 0x04 => g.baseHi.toNat | 0x08 => g.cfg
  | 0x10 => g.hostIdx.toNat | 0x14 => g.dev.toNat | 0x18 => g.stateWord | _ => 0

/-- MB_ACKTAG. -/
def Channel.ackTag (h : Channel) : Nat :=
  match h.acks with
  | [] => 0
  | a :: _ => 2 ^ 31 + b1 a.auto * 2 ^ 30 + a.tag.toNat

/-- MB_BIND: the binding's upper half, the channel epoch and VALID (11 Tables 11.9, 11.11). -/
def bindWord (b : Binding) (h : Channel) : Nat :=
  if b.valid then
    b.sender % 16 * 2 ^ 28 + b.receiver % 16 * 2 ^ 24 + b1 b.juniorRx * 2 ^ 23 + b.partner % 128 * 2 ^ 16 + h.epoch.toNat * 2 ^ 8 + 1
  else h.epoch.toNat * 2 ^ 8

/-- Mailbox registers of channel `c`, as the bound master reads them (11 Table 11.11); a denied read is MB_ACCESS_DENIED. -/
def State.mailboxWord (s : State) (c o : Nat) : Nat :=
  let h := s.chan c
  if o < 0x40 then wordAt h.txbuf o
  else if 0x80 ≤ o ∧ o < 0xC0 then
    match h.messages with
    | m :: _ => wordAt m.data (o - 0x80)
    | [] => 0
  else match o with
    | 0x44 => h.txState
    | 0x48 => h.ackTag
    | 0x4C => match h.acks with | a :: _ => a.code.toNat | [] => 0
    | 0x50 => (s.source (0x100 + c)).word
    | 0xC0 => h.rxInfo
    | 0xC8 => (s.source (0x140 + c)).word
    | 0xD0 => bindWord (s.bound c) h
    | _ => 0

/-- Word `o` of the block of an event source (16 Table 16.6). -/
def EventSource.blockWord (e : EventSource) (o : Nat) : Nat :=
  match o with
  | 0x00 => e.word | 0x04 => e.time.toNat % 2 ^ 32 | 0x08 => e.time.toNat / 2 ^ 32 | 0x0C => 0
  | o => wordAt e.capture (o - 0x10)

/-- EVT_PEND word `w`. -/
def State.pendWord (s : State) (w : Nat) : Nat := ((List.range 32).map fun b => flagIf (s.source (32 * w + b)).pend b).sum

/-- A time register block: NS, SEC_LO, SEC_HI. -/
def timeWord (ns k : Nat) : Nat :=
  let p := ptimeOfNs ns
  if k = 0 then p.ns else if k = 1 then p.sec % 2 ^ 32 else p.sec / 2 ^ 32

/-- SLOW_BUSY. -/
def State.slowBusy (s : State) : Nat := (s.acc.slow.map fun e => 2 ^ e.1).sum

/-- A word of BAR0 that lies below the rings. -/
def State.unitWord (s : State) (o : Nat) : Nat :=
  if 0x10100 ≤ o ∧ o < 0x10190 then wordOf s.rules.buf.toNat (o - 0x10100)
  else if 0x11100 ≤ o ∧ o < 0x11500 then wordAt s.fdb.nextBuf (o - 0x11100)
  else if 0x12100 ≤ o ∧ o < 0x12128 then wordOf (cleanFlowKey s.flow.key).toNat (o - 0x12100)
  else if 0x12140 ≤ o ∧ o < 0x12168 then wordOf s.flow.mask.toNat (o - 0x12140)
  else if 0x12180 ≤ o ∧ o < 0x121C0 then wordOf (linkHead s.flow.headReg).toNat (o - 0x12180)
  else if 0x121C0 ≤ o ∧ o < 0x12200 then wordOf s.flow.tailReg.toNat (o - 0x121C0)
  else if 0x13000 ≤ o ∧ o < 0x14000 then wordAt s.flow.nextBuf (o - 0x13000)
  else if 0x11010 ≤ o ∧ o < 0x11020 then wordOf s.fdb.entry.toNat (o - 0x11010)
  else if 0x14004 ≤ o ∧ o < 0x14010 then timeWord s.captured0 ((o - 0x14004) / 4)
  else if 0x14010 ≤ o ∧ o < 0x1401C then timeWord s.captured1 ((o - 0x14010) / 4)
  else match o with
    | 0x0 => 0x47414C4B | 0x4 => 0x32164200 | 0x8 => 0x00004832
    | 0x100 => (s.source evDark).word | 0x104 => s.acc.darkAddr.toNat
    | 0x108 => s.slowBusy | 0x10C => (s.source 0x181).word | 0x110 => s.acc.slowDropAddr.toNat
    | 0x124 => s.cnt.status | 0x128 => s.cnt.snapTime.ns
    | 0x12C => s.cnt.snapTime.sec % 2 ^ 32 | 0x130 => s.cnt.snapTime.sec / 2 ^ 32
    | 0x134 => s.cnt.sel.toNat | 0x138 => s.selected % 2 ^ 32 | 0x13C => s.selected / 2 ^ 32
    | 0x200 => s.hostLinkWord | 0x204 => (s.source 0x1AA).word | 0x208 => s.acc.hostAccAddr.toNat
    | 0x10004 => s.rules.stateWord | 0x10008 => (s.source 0x189).word
    | 0x11004 => s.fdb.cursor.toNat | 0x11008 => s.fdb.keyLo.toNat | 0x1100C => s.fdb.keyHi.toNat
    | 0x11020 => s.fdb.stateWord | 0x11024 => s.fdb.count.toNat * 2 ^ 8 + s.fdb.code.toNat
    | 0x11028 => (s.source 0x191).word | 0x11030 => (s.source 0x192).word | 0x11034 => s.fdb.shadowIdx.toNat
    | 0x12004 => s.flow.cursor.toNat | 0x12008 => s.flow.stateWord
    | 0x1200C => s.flow.count.toNat * 2 ^ 8 + s.flow.code.toNat
    | 0x12010 => (s.source 0x197).word | 0x12018 => (s.source 0x198).word | 0x1201C => s.flow.hdmLine.toNat
    | _ => 0

/-- The value of a word of BAR0 in an awake device; write-only and reserved fields read 0. -/
def State.bar0Word (s : State) (o : Nat) : Nat :=
  if o < 0x20000 then s.unitWord o
  else if o < 0x30000 then
    if o % 64 = 0x1C then (s.source (evRing ((o - 0x20000) / 64))).word else (s.ring ((o - 0x20000) / 64)).word (o % 64)
  else if o < 0x34000 then s.mailboxWord ((o - 0x30000) / 256) (o % 256)
  else if 0x38000 ≤ o ∧ o < 0x3C000 then s.mailboxWord ((o - 0x38000) / 256) (o % 256)
  else if o = 0x3F000 then (s.source 0x1AC).word
  else if o = 0x3F004 then s.mbox.denyInfo.toNat
  else if 0x40000 ≤ o ∧ o < 0x48000 then (s.source ((o - 0x40000) / 32)).blockWord (o % 32)
  else if 0x48000 ≤ o ∧ o < 0x49000 then (tget s.route ((o - 0x48000) / 4) 0).toNat
  else if 0x4A000 ≤ o ∧ o < 0x4A080 then s.pendWord ((o - 0x4A000) / 4)
  else match o with
    | 0x4C000 => flagIf s.cnt.armed 31 + flagIf s.cnt.freezeDump 30 + s.cnt.freezeSource.toNat
    | 0x4C004 => s.cnt.dumpLo.toNat * 2 ^ 12
    | 0x4C008 => s.cnt.dumpHi.toNat
    | _ => 0

/-- A word of a dictionary window (02 Table 2.2). -/
def Window.word (w : Window) (o : Nat) : Nat :=
  if 0x1000 ≤ o then (if w.busy then 0 else wordAt w.data (o - 0x1000))
  else match o with
    | 0x04 => w.segment.toNat * 2 ^ 16 + w.length.toNat
    | 0x08 => w.regTag.toNat
    | 0x0C => flagIf w.busy 31 + flagIf w.overrun 30 + flagIf w.done 29 + w.tag.toNat
    | 0x10 => w.result.toNat
    | 0x14 => w.rlen.toNat
    | _ => 0

/-- A word of an MSI-X table entry. -/
def MsixEntry.word (e : MsixEntry) (k : Nat) : Nat :=
  match k with
  | 0 => e.addr.toNat % 2 ^ 32 | 1 => e.addr.toNat / 2 ^ 32 | 2 => e.data.toNat | _ => b1 e.masked

/-- A word of BAR2 in an awake device. -/
def State.bar2Word (s : State) (o : Nat) : Nat :=
  if o < 0x10000 then s.dict.secure.word o
  else if o < 0x20000 then s.dict.nonsecure.word (o - 0x10000)
  else if o < 0x28000 then (tget s.host.msix ((o - 0x20000) / 16) {}).word (o % 16 / 4)
  else ((List.range 32).map fun b => flagIf (tget s.host.msixPending (32 * ((o - 0x28000) / 4) + b) false) b).sum

/-- What a read of one word returns, without its side effects (CNT_DATA_HI_READ, MB_ACKCODE_READ), which are rows of their
own: an unassigned word reads 0 and a dark one 0xD0FF_D0FF. -/
def State.barRead (s : State) (bar : Bar) (o : Nat) : Nat :=
  if !barAssigned bar o then 0
  else if s.dark bar o then 0xD0FFD0FF
  else match bar with
    | .bar0 => s.bar0Word o
    | .bar2 => s.bar2Word o
    | .bar4 => s.componentWord o

/-- The bytes that a read of `n` bytes returns (10 R268, R269): its registers from the lowest, or 0 in each 4 bytes where the
size or the alignment is not accepted. Partial byte enables change nothing of it: each enabled byte is that of the register. -/
def State.barReadBytes (s : State) (bar : Bar) (off n : Nat) : List Byte :=
  let words := (List.range ((n + 3) / 4)).map fun i => if barSize bar off n then s.barRead bar (off + 4 * i) else 0
  (words.map fun w => leBytes 4 w).flatten

/-- SLOW_DOMAIN_READ: held until the posted write has taken effect, and then the register's value (02 R50). -/
def execSlowDomainRead (t : Nat) (m : Master) (dom : SlowDomain) (off : BitVec 25) (s : State) : Result :=
  s.runAny t fun s =>
    if s.hears m && s.slowAwake dom then
      let s := s.slowSettle dom
      s.emit (.regData (leBytes 4 (s.barRead .bar0 off.toNat)))
    else s

/-! ### Writes -/

/-- A word of a wide register replaced. -/
def putWord (v o w : Nat) : Nat := setBits v (8 * o) 32 w

/-- RULE_CTRL and RULE_BUF (03 Table 3.7). -/
def State.writeRule (s : State) (o w : Nat) : State :=
  if o = 0x10000 then
    let row := bits w 0 15
    if s.rules.busy then s.ruleStatus 4
    else match bits w 16 2 with
      | 1 => s.ruleInvalidate (Fin.ofNat 32768 row)
      | 2 => s.ruleWriteValidate (Fin.ofNat 32768 row)
      | 3 => s.ruleRefresh (Fin.ofNat 32768 row)
      | _ => s
  else if 0x10100 ≤ o then
    if s.rules.busy then s.ruleStatus 4
    else { s with rules.buf := BitVec.ofNat 1152 (cleanRuleBuf (putWord s.rules.buf.toNat (o - 0x10100) w)) }
  else if o = 0x10008 then s.statusClear 0x189 (BitVec.ofNat 32 w)
  else s

/-- FDB_CMD (04 Tables 4.3, 4.5). -/
def State.fdbCommand (s : State) (w : Nat) : State :=
  match bits w 24 4 with
  | 0 => s
  | 1 => s.fdbSearch
  | 2 => s.fdbNext (bit w 19) (bit w 18) (BitVec.ofNat 6 (bits w 12 6)) (BitVec.ofNat 12 w)
  | 3 => s.fdbInsert
  | 4 => s.fdbDelete
  | 5 => s.fdbDeleteIndex
  | 6 => s.flushPort (bit w 20) (bit w 19) (BitVec.ofNat 6 (bits w 12 6)) (BitVec.ofNat 12 w)
  | _ => s.fdbBadOp

/-- The command and shadow registers of the FDB (04 R103, Table 4.5). -/
def State.writeFdb (s : State) (o w : Nat) : State :=
  let v := BitVec.ofNat 32 w
  if o < 0x11020 then
    if s.fdb.busy then s.fdbOverrun
    else match o with
      | 0x11000 => s.fdbCommand w
      | 0x11004 => { s with fdb.cursor := BitVec.ofNat 21 w }
      | 0x11008 => { s with fdb.keyLo := v }
      | 0x1100C => { s with fdb.keyHi := BitVec.ofNat 28 w }
      | _ => { s with fdb.entry := BitVec.ofNat 128 (putWord s.fdb.entry.toNat (o - 0x11010) w) }
  else match o with
    | 0x11028 => s.statusClear 0x191 v
    | 0x11030 => s.statusClear 0x192 v
    | _ => s

/-- The command that FLOW_CMD names; none for OP 0 (05 Tables 5.8, 5.10). -/
def flowCmdOf (m : Master) (w : Nat) : Option FlowCmd :=
  let policy := bits w 0 10
  match bits w 24 4 with
  | 0 => none
  | 1 => some .search
  | 2 => some (.next (bit w 17) policy)
  | 3 => some (.insert (bit w 19) (insertOrigin m))
  | 4 => some .delete
  | 5 => some .deleteTail
  | 6 => some .retire
  | 7 => some (.flush (bit w 20) (bit w 18) (bit w 17) policy)
  | 8 => some .deleteSlot
  | _ => some .badOp

/-- A write of FLOW_CMD. What error correction finds on the reads of the command comes with the command's own row (DESIGN CHOICE,
log entry 95); here it finds nothing. -/
def State.flowCommand (s : State) (m : Master) (w : Nat) : State :=
  match flowCmdOf m w with
  | some c => s.flowStart c []
  | none => s

/-- The flow command registers (05 R137, Table 5.10). -/
def State.writeFlow (s : State) (m : Master) (o w : Nat) : State :=
  let v := BitVec.ofNat 32 w
  let f := s.flow
  if o = 0x12000 ∨ o = 0x12004 ∨ 0x12100 ≤ o then
    if f.busy then s.flowOverrun
    else if o = 0x12000 then s.flowCommand m w
    else if o = 0x12004 then { s with flow.cursor := BitVec.ofNat 27 w }
    else if o < 0x12140 then { s with flow.key := BitVec.ofNat 320 (putWord f.key.toNat (o - 0x12100) w) }
    else if o < 0x12180 then { s with flow.mask := BitVec.ofNat 320 (putWord f.mask.toNat (o - 0x12140) w) }
    else if o < 0x121C0 then { s with flow.headReg := cleanHead (BitVec.ofNat 512 (putWord f.headReg.toNat (o - 0x12180) w)) }
    else { s with flow.tailReg := cleanTail (BitVec.ofNat 512 (putWord f.tailReg.toNat (o - 0x121C0) w)) }
  else match o with
    | 0x12010 => s.statusClear 0x197 v
    | 0x12018 => s.statusClear 0x198 v
    | _ => s

/-- The ring registers (10 Table 10.10). What the host has posted stands in host memory, whose contents the write does not
carry: a doorbell of an RX ring by this row takes free descriptors (log entry 8). -/
def State.writeRing (s : State) (o w : Nat) : State :=
  let r := (o - 0x20000) / 64
  match o % 64 with
  | 0x00 => s.ringConfig r .baseLo w
  | 0x04 => s.ringConfig r .baseHi w
  | 0x08 => s.ringConfig r .cfg w
  | 0x0C => match w % 4 with
    | 1 => s.ringStart r
    | 2 => s.ringStop r
    | _ => s
  | 0x10 =>
    let v := BitVec.ofNat 16 w
    let (posted, s) := s.freeBytes (32 * (v - (s.ring r).hostIdx).toNat)
    s.doorbell r v posted
  | 0x1C => s.statusClear (evRing r) (BitVec.ofNat 32 w)
  | _ => s

/-- The mailbox registers, as the master that reaches them by an alias may write them (11 R303, Table 11.11). -/
def State.writeMailbox (s : State) (master c o w : Nat) : State :=
  let v := BitVec.ofNat 32 w
  if o < 0x54 then
    s.asSender master c true fun s =>
      if o < 0x40 then s.setChan c { s.chan c with txbuf := splice (s.chan c).txbuf o (leBytes 4 w) }
      else if o = 0x40 then s.mbPost c (BitVec.ofNat 16 w)
      else if o = 0x50 then s.statusClear (0x100 + c) v
      else s
  else if o = 0xCC then
    if w % 4 = 0 then
      if s.isSender master c || s.isReceiver master c then s else s.mbDeny master c true
    else
      -- one write, of which each part that the master may not make is denied together
      let tx := bit w 0 && s.isSender master c
      let rx := bit w 1 && s.isReceiver master c
      let denied := (bit w 0 && !tx) || (bit w 1 && !rx)
      let s := if tx then s.mbResetSender c else s
      let s := if rx then s.mbResetReceiver c else s
      if denied then s.mbDeny master c true else s
  else if o = 0xD0 then s.mbDeny master c true
  else
    s.asReceiver master c true fun s =>
      if o = 0xC4 then s.mbAck c (BitVec.ofNat 16 (w / 2 ^ 16)) (BitVec.ofNat 16 w)
      else if o = 0xC8 then s.statusClear (0x140 + c) v
      else s

/-- EVT_ROUTE: the host does not set GROUPS (16 R422). -/
def State.writeRoute (s : State) (m : Master) (n w : Nat) : State :=
  let old := (tget s.route n 0).toNat
  let groups := if m = .host then bits old 16 3 else bits w 16 3
  { s with route := tset 0 s.route n (BitVec.ofNat 32 (groups * 2 ^ 16 + bits w 0 12)) }

/-- The registers of the host domain: status words, snapshot, counters and time. -/
def State.writeCommon (s : State) (o w : Nat) : State :=
  let v := BitVec.ofNat 32 w
  match o with
  | 0x100 => s.statusClear evDark v
  | 0x10C => s.statusClear 0x181 v
  | 0x120 => match w % 4 with
    | 1 => s.snapshot
    | 2 => s.snapshotDump
    | 3 => s.freezeArm
    | _ => s
  | 0x134 => { s with cnt.sel := BitVec.ofNat 20 w }
  | 0x204 => s.statusClear 0x1AA v
  | 0x14000 => if bit w 0 then s.timeCapture else s
  | 0x3F000 => s.statusClear 0x1AC v
  | 0x4C000 =>
    let c := s.cnt
    let retarget := if c.armed then some (s.now, c.sourceAt s.now) else none
    { s with cnt := { c with freezeDump := bit w 30, freezeSource := BitVec.ofNat 10 w, retarget } }
  | 0x4C004 => { s with cnt.dumpLo := BitVec.ofNat 20 (w / 2 ^ 12) }
  | 0x4C008 => { s with cnt.dumpHi := v }
  | _ => s

/-- A write of one word of BAR0 in an awake device; a read-only word, and one that is reserved, discards it (02 R55). -/
def State.writeBar0 (s : State) (m : Master) (o w : Nat) : State :=
  if 0x10000 ≤ o ∧ o < 0x11000 then s.writeRule o w
  else if 0x11000 ≤ o ∧ o < 0x12000 then s.writeFdb o w
  else if 0x12000 ≤ o ∧ o < 0x13000 then s.writeFlow m o w
  else if 0x20000 ≤ o ∧ o < 0x30000 then s.writeRing o w
  else if 0x30000 ≤ o ∧ o < 0x34000 then s.writeMailbox (mailboxMaster m true) ((o - 0x30000) / 256) (o % 256) w
  else if 0x38000 ≤ o ∧ o < 0x3C000 then s.writeMailbox (mailboxMaster m false) ((o - 0x38000) / 256) (o % 256) w
  else if 0x40000 ≤ o ∧ o < 0x48000 then
    if o % 32 = 0 then s.statusClear ((o - 0x40000) / 32) (BitVec.ofNat 32 w) else s
  else if 0x48000 ≤ o ∧ o < 0x49000 then s.writeRoute m ((o - 0x48000) / 4) w
  else s.writeCommon o w

/-- A word of a dictionary window: dropped with OVERRUN while BUSY (02 R37). -/
def Window.write (x : Window) (o w : Nat) : Window :=
  if 0x0C ≤ o ∧ o < 0x1000 then x
  else if x.busy then { x with overrun := true }
  else if 0x1000 ≤ o then { x with data := splice x.data (o - 0x1000) (leBytes 4 w) }
  else if o = 0x04 then { x with segment := BitVec.ofNat 16 (w / 2 ^ 16), length := BitVec.ofNat 13 w }
  else if o = 0x08 then { x with regTag := BitVec.ofNat 16 w }
  else x

/-- The command that a write to DW_CMD names. -/
def windowCommand (w : Nat) : DictCommand := { op := dictOpOf (bits w 24 8), idx := bits w 8 16, sub := bits w 0 8 }

/-- An MSI-X table entry: address, data, or the mask, whose clearing sends what is pending (10 R284). -/
def State.writeMsix (s : State) (v k w : Nat) : State :=
  let e := tget s.host.msix v {}
  let put (x : MsixEntry) : State := { s with host.msix := tset {} s.host.msix v x }
  match k with
  | 0 => put { e with addr := BitVec.ofNat 64 (setBits e.addr.toNat 0 32 w) }
  | 1 => put { e with addr := BitVec.ofNat 64 (setBits e.addr.toNat 32 32 w) }
  | 2 => put { e with data := BitVec.ofNat 32 w }
  | _ => if bit w 0 then put { e with masked := true } else s.msixUnmask (some v)

/-- A write of one word of BAR2 in an awake device. -/
def State.writeBar2 (s : State) (o w : Nat) : State :=
  if o = 0 then s.accept .secure (s.dict.secure.latched (windowCommand w))
  else if o = 0x10000 then s.accept .nonsecure (s.dict.nonsecure.latched (windowCommand w))
  else if o < 0x10000 then { s with dict.secure := s.dict.secure.write o w }
  else if o < 0x20000 then { s with dict.nonsecure := s.dict.nonsecure.write (o - 0x10000) w }
  else if o < 0x28000 then s.writeMsix ((o - 0x20000) / 16) (o % 16 / 4) w
  else s

/-- A write of one assigned word that is not dark. -/
def State.writeWord (s : State) (m : Master) (bar : Bar) (o w : Nat) : State :=
  match bar with
  | .bar0 => s.writeBar0 m o w
  | .bar2 => s.writeBar2 o w
  | .bar4 => s.writeComponent o w

/-- One word of a write: unassigned, dark, or a register (Table 10.6, the first row that applies). -/
def State.barWord (s : State) (m : Master) (bar : Bar) (o w : Nat) : State :=
  if !barAssigned bar o then s.hostAcc 0 (barCode bar) true o
  else if s.dark bar o then s.darkAccess m bar o true
  else s.writeWord m bar o w

/-- A write to a BAR: of a size, alignment or byte enables outside R268 it is discarded; else its words act from the lowest. A
processor group and the Starter reach BAR0 alone (18 R458). -/
def State.barWrite (s : State) (m : Master) (bar : Bar) (off : Nat) (data : BarData) : State :=
  let bs := data.bytes
  if !s.hears m || (m != .host && bar != .bar0) then s
  else if !barSize bar off bs.length || !data.full then s.hostAcc 1 (barCode bar) true off
  else (List.range ((bs.length + 3) / 4)).foldl (fun s i => s.barWord m bar (off + 4 * i) (wordAt bs (4 * i))) s

/-- REGISTER_WRITE. -/
def execRegisterWrite (t : Nat) (m : Master) (bar : Bar) (off : Nat) (data : BarData) (s : State) : Result :=
  s.runNv t fun s => s.barWrite m bar off data

/-! ### Accesses that are not ordinary (10 R269, R270, Table 10.6) -/

/-- A read returns 0 for each 4 of its `n` bytes; a write is discarded; HOST_ACC records either. -/
def State.oddAccess (s : State) (flag : Nat) (bar : Bar) (off : Nat) (wr : Bool) (n : Nat) : State :=
  let s := s.hostAcc flag (barCode bar) wr off
  if wr then s else s.emit (.regData (List.replicate ((n + 3) / 4) (leBytes 4 0)).flatten)

/-- BAR_POISONED_WRITE: discarded, with AER's advisory error. -/
def execBarPoisonedWrite (t : Nat) (bar : Bar) (off : BitVec 29) (s : State) : Result :=
  s.runAny t fun s => if s.hears .host then (s.hostAcc 2 (barCode bar) true off.toNat).aerAdvise else s

/-- Does R268 accept an access: its size and alignment, and for a write its byte enables? -/
def shapeAccepted (x : BarShape) (bar : Bar) (off : Nat) : Bool := barSize bar off x.size && (!x.wr || x.full)

/-- BAR_BAD_SIZE_ACCESS: size, alignment or byte enables outside R268. -/
def execBarBadSizeAccess (t : Nat) (bar : Bar) (off : BitVec 29) (shape : BarShape) (s : State) : Result :=
  s.runAny t fun s => if !s.hears .host || shapeAccepted shape bar off.toNat then s else s.oddAccess 1 bar off.toNat shape.wr shape.size

/-- BAR_UNASSIGNED_ACCESS: an access of 4 bytes to an offset that is no register. -/
def execBarUnassignedAccess (t : Nat) (bar : Bar) (off : BitVec 29) (wr : Bool) (s : State) : Result :=
  s.runAny t fun s => if !s.hears .host || barAssigned bar off.toNat then s else s.oddAccess 0 bar off.toNat wr 4

end Sys2Proof.Machine
end

