-- ==== Sys2Proof/Machine/Dispatch.lean ====
section
/-! DEFINITION. One arm for each command of the table: a direct call of its meaning. -/
namespace Sys2Proof.Machine

/-- The effect of a command on everything but the queue. -/
def exec (i : Instr) (s : State) : Host.Outcome State Fault Refusal :=
  match i with
  | .registerWrite t m bar off data => Sys2Proof.Machine.execRegisterWrite t m bar off data s
  | .read t src idx sub => Sys2Proof.Machine.execRead t src idx sub s
  | .write t src idx sub data => Sys2Proof.Machine.execWrite t src idx sub data s
  | .readStaged t src idx sub => Sys2Proof.Machine.execReadStaged t src idx sub s
  | .commit t src group data => Sys2Proof.Machine.execCommit t src group data s
  | .discard t src group data => Sys2Proof.Machine.execDiscard t src group data s
  | .blockOpen t src idx sub data => Sys2Proof.Machine.execBlockOpen t src idx sub data s
  | .blockSeg t src idx sub seg data => Sys2Proof.Machine.execBlockSeg t src idx sub seg data s
  | .blockClose t src idx sub data => Sys2Proof.Machine.execBlockClose t src idx sub data s
  | .blockRead t src idx sub seg => Sys2Proof.Machine.execBlockRead t src idx sub seg s
  | .blockCancel t src idx sub => Sys2Proof.Machine.execBlockCancel t src idx sub s
  | .blockReadStaged t src idx sub seg => Sys2Proof.Machine.execBlockReadStaged t src idx sub seg s
  | .unknownOpcode t src op => Sys2Proof.Machine.execUnknownOpcode t src op s
  | .timedCommitEffect t group => Sys2Proof.Machine.execTimedCommitEffect t group s
  | .blockAbandoned t src => Sys2Proof.Machine.execBlockAbandoned t src s
  | .marshalServiceTimeout t src => Sys2Proof.Machine.execMarshalServiceTimeout t src s
  | .marshalAnswer t src code => Sys2Proof.Machine.execMarshalAnswer t src code s
  | .statusClear t n value => Sys2Proof.Machine.execStatusClear t n value s
  | .holdOffEnd t n => Sys2Proof.Machine.execHoldOffEnd t n s
  | .snapshot t => Sys2Proof.Machine.execSnapshot t s
  | .snapshotDump t => Sys2Proof.Machine.execSnapshotDump t s
  | .snapshotFreezeArm t => Sys2Proof.Machine.execSnapshotFreezeArm t s
  | .snapshotComplete t => Sys2Proof.Machine.execSnapshotComplete t s
  | .dumpComplete t => Sys2Proof.Machine.execDumpComplete t s
  | .cntDataHiRead t m => Sys2Proof.Machine.execCntDataHiRead t m s
  | .slowDomainWrite t m dom off value => Sys2Proof.Machine.execSlowDomainWrite t m dom off value s
  | .slowWriteTakesEffect t dom => Sys2Proof.Machine.execSlowWriteTakesEffect t dom s
  | .slowDomainRead t m dom off => Sys2Proof.Machine.execSlowDomainRead t m dom off s
  | .darkRead t m bar off halves => Sys2Proof.Machine.execDarkRead t m bar off halves s
  | .darkWrite t m bar off => Sys2Proof.Machine.execDarkWrite t m bar off s
  | .watchdogExpiry t g => Sys2Proof.Machine.execWatchdogExpiry t g s
  | .watchdogRestart t g => Sys2Proof.Machine.execWatchdogRestart t g s
  | .linkTrainingStart t p => Sys2Proof.Machine.execLinkTrainingStart t p s
  | .partnerDetected t p => Sys2Proof.Machine.execPartnerDetected t p s
  | .linkUp t p => Sys2Proof.Machine.execLinkUp t p s
  | .linkDown t p => Sys2Proof.Machine.execLinkDown t p s
  | .rxFrameStart t p head => Sys2Proof.Machine.execRxFrameStart t p head s
  | .rxFrameEnd t f rest linkFailed merge => Sys2Proof.Machine.execRxFrameEnd t f rest linkFailed merge s
  | .parse t f => Sys2Proof.Machine.execParse t f s
  | .classificationDone t f => Sys2Proof.Machine.execClassificationDone t f s
  | .reorderRelease t sl => Sys2Proof.Machine.execReorderRelease t sl s
  | .flowVerdict t f ecc => Sys2Proof.Machine.execFlowVerdict t f ecc s
  | .admissionTokenRefill t => Sys2Proof.Machine.execAdmissionTokenRefill t s
  | .flowInsertPlace t key => Sys2Proof.Machine.execFlowInsertPlace t key s
  | .relocationMove t key => Sys2Proof.Machine.execRelocationMove t key s
  | .judgeDeadlineExpiry t key => Sys2Proof.Machine.execJudgeDeadlineExpiry t key s
  | .sweepVisit t ecc => Sys2Proof.Machine.execSweepVisit t ecc s
  | .sweepResume t => Sys2Proof.Machine.execSweepResume t s
  | .hdmRead t addr ecc => Sys2Proof.Machine.execHdmRead t addr ecc s
  | .hdmWrite t addr => Sys2Proof.Machine.execHdmWrite t addr s
  | .hdmMeminv t addr => Sys2Proof.Machine.execHdmMeminv t addr s
  | .flowSearch t m => Sys2Proof.Machine.execFlowSearch t m s
  | .flowNext t m byPolicy policy => Sys2Proof.Machine.execFlowNext t m byPolicy policy s
  | .flowInsert t m initTail => Sys2Proof.Machine.execFlowInsert t m initTail s
  | .flowDelete t m => Sys2Proof.Machine.execFlowDelete t m s
  | .deleteTail t m => Sys2Proof.Machine.execDeleteTail t m s
  | .retire t m => Sys2Proof.Machine.execRetire t m s
  | .flushMatch t m withPin viaExport byPolicy policy => Sys2Proof.Machine.execFlushMatch t m withPin viaExport byPolicy policy s
  | .flushMatchComplete t => Sys2Proof.Machine.execFlushMatchComplete t s
  | .deleteSlot t m => Sys2Proof.Machine.execDeleteSlot t m s
  | .flowBadOp t m op => Sys2Proof.Machine.execFlowBadOp t m op s
  | .announcementArrive t sl => Sys2Proof.Machine.execAnnouncementArrive t sl s
  | .gapTimeout t sl p c => Sys2Proof.Machine.execGapTimeout t sl p c s
  | .copyBecomesHead t p c => Sys2Proof.Machine.execCopyBecomesHead t p c s
  | .txStart t p ecc => Sys2Proof.Machine.execTxStart t p ecc s
  | .copyTxEnd t p ecc => Sys2Proof.Machine.execCopyTxEnd t p ecc s
  | .bundlePrepared t => Sys2Proof.Machine.execBundlePrepared t s
  | .deferredAddWrite t row => Sys2Proof.Machine.execDeferredAddWrite t row s
  | .ruleInvalidate t m row => Sys2Proof.Machine.execRuleInvalidate t m row s
  | .ruleWriteValidate t m row => Sys2Proof.Machine.execRuleWriteValidate t m row s
  | .ruleRefresh t m row => Sys2Proof.Machine.execRuleRefresh t m row s
  | .ruleOpComplete t => Sys2Proof.Machine.execRuleOpComplete t s
  | .tcamScrub t sl row bad => Sys2Proof.Machine.execTcamScrub t sl row bad s
  | .learnCommit t => Sys2Proof.Machine.execLearnCommit t s
  | .ageTick t => Sys2Proof.Machine.execAgeTick t s
  | .fdbWalkVisit t ecc => Sys2Proof.Machine.execFdbWalkVisit t ecc s
  | .fdbAgeOut t => Sys2Proof.Machine.execFdbAgeOut t s
  | .fdbSearch t m => Sys2Proof.Machine.execFdbSearch t m s
  | .fdbNext t m byVid byPort port vid => Sys2Proof.Machine.execFdbNext t m byVid byPort port vid s
  | .fdbInsert t m => Sys2Proof.Machine.execFdbInsert t m s
  | .fdbDelete t m => Sys2Proof.Machine.execFdbDelete t m s
  | .fdbDeleteIndex t m => Sys2Proof.Machine.execFdbDeleteIndex t m s
  | .flushPort t m withPin byVid port vid => Sys2Proof.Machine.execFlushPort t m withPin byVid port vid s
  | .fdbFlushComplete t => Sys2Proof.Machine.execFdbFlushComplete t s
  | .fdbBadOp t m op => Sys2Proof.Machine.execFdbBadOp t m op s
  | .shadowFetch t ok data => Sys2Proof.Machine.execShadowFetch t ok data s
  | .shadowConfirmFetch t ok index entry => Sys2Proof.Machine.execShadowConfirmFetch t ok index entry s
  | .bufferThresholdEval t => Sys2Proof.Machine.execBufferThresholdEval t s
  | .freeListRebuild t tile => Sys2Proof.Machine.execFreeListRebuild t tile s
  | .shaperTick t p => Sys2Proof.Machine.execShaperTick t p s
  | .gateEntryChange t p => Sys2Proof.Machine.execGateEntryChange t p s
  | .gateSwap t p => Sys2Proof.Machine.execGateSwap t p s
  | .preemptHoldStart t p c => Sys2Proof.Machine.execPreemptHoldStart t p c s
  | .preemptionVerifyDone t p ok => Sys2Proof.Machine.execPreemptionVerifyDone t p ok s
  | .portFlushDone t p => Sys2Proof.Machine.execPortFlushDone t p s
  | .clockStep t d seconds nanos => Sys2Proof.Machine.execClockStep t d seconds nanos s
  | .timeCapture t m => Sys2Proof.Machine.execTimeCapture t m s
  | .holdSpanStart t sl => Sys2Proof.Machine.execHoldSpanStart t sl s
  | .holdSpanEnd t sl => Sys2Proof.Machine.execHoldSpanEnd t sl s
  | .wakePlanWrite t spans planEnd => Sys2Proof.Machine.execWakePlanWrite t spans planEnd s
  | .planExpired t => Sys2Proof.Machine.execPlanExpired t s
  | .recoveryResetTimeout t h => Sys2Proof.Machine.execRecoveryResetTimeout t h s
  | .nodeTableSweepVisit t pos => Sys2Proof.Machine.execNodeTableSweepVisit t pos s
  | .hostLinkTrained t cxl speed width cache mem => Sys2Proof.Machine.execHostLinkTrained t cxl speed width cache mem s
  | .hostLinkReset t kind => Sys2Proof.Machine.execHostLinkReset t kind s
  | .flr t => Sys2Proof.Machine.execFlr t s
  | .hostLinkError t => Sys2Proof.Machine.execHostLinkError t s
  | .barPoisonedWrite t bar off => Sys2Proof.Machine.execBarPoisonedWrite t bar off s
  | .barBadSizeAccess t bar off wr => Sys2Proof.Machine.execBarBadSizeAccess t bar off wr s
  | .barUnassignedAccess t bar off wr => Sys2Proof.Machine.execBarUnassignedAccess t bar off wr s
  | .hdmDormantRead t addr => Sys2Proof.Machine.execHdmDormantRead t addr s
  | .ringConfigWrite t m r reg value => Sys2Proof.Machine.execRingConfigWrite t m r reg value s
  | .ringStart t m r => Sys2Proof.Machine.execRingStart t m r s
  | .ringStop t m r => Sys2Proof.Machine.execRingStop t m r s
  | .ringStopped t r => Sys2Proof.Machine.execRingStopped t r s
  | .ringDoorbell t m r value posted => Sys2Proof.Machine.execRingDoorbell t m r value posted s
  | .ringCoalesceTimeout t r => Sys2Proof.Machine.execRingCoalesceTimeout t r s
  | .txDescriptorFetch t r ok desc => Sys2Proof.Machine.execTxDescriptorFetch t r ok desc s
  | .txFrameIntake t r ok buffer => Sys2Proof.Machine.execTxFrameIntake t r ok buffer s
  | .rxWaitLimit t c => Sys2Proof.Machine.execRxWaitLimit t c s
  | .msixUnmask t vector => Sys2Proof.Machine.execMsixUnmask t vector s
  | .groupStop t src g => Sys2Proof.Machine.execGroupStop t src g s
  | .groupStart t src g => Sys2Proof.Machine.execGroupStart t src g s
  | .groupRestart t src g => Sys2Proof.Machine.execGroupRestart t src g s
  | .groupCheckDone t g ok => Sys2Proof.Machine.execGroupCheckDone t g ok s
  | .restWait t core irq => Sys2Proof.Machine.execRestWait t core irq s
  | .restSleep t core irq => Sys2Proof.Machine.execRestSleep t core irq s
  | .restDevice t core irq target => Sys2Proof.Machine.execRestDevice t core irq target s
  | .coreWake t core ecc => Sys2Proof.Machine.execCoreWake t core ecc s
  | .coreAccessRefused t core addr wr => Sys2Proof.Machine.execCoreAccessRefused t core addr wr s
  | .mbPost t master c tag => Sys2Proof.Machine.execMbPost t master c tag s
  | .mbAck t master c tag code => Sys2Proof.Machine.execMbAck t master c tag code s
  | .mbAckcodeRead t master c => Sys2Proof.Machine.execMbAckcodeRead t master c s
  | .mbResetTx t master c => Sys2Proof.Machine.execMbResetTx t master c s
  | .mbResetRx t master c => Sys2Proof.Machine.execMbResetRx t master c s
  | .mbAccessDenied t master c wr => Sys2Proof.Machine.execMbAccessDenied t master c wr s
  | .mbCrossing t c => Sys2Proof.Machine.execMbCrossing t c s
  | .sallarHeartbeatSend t lane => Sys2Proof.Machine.execSallarHeartbeatSend t lane s
  | .sallarLaneTimeout t lane => Sys2Proof.Machine.execSallarLaneTimeout t lane s
  | .sallarFrameRx t lane frame => Sys2Proof.Machine.execSallarFrameRx t lane frame s
  | .sallarResend t => Sys2Proof.Machine.execSallarResend t s
  | .generatorMirrorBatch t => Sys2Proof.Machine.execGeneratorMirrorBatch t s
  | .digestEmit t => Sys2Proof.Machine.execDigestEmit t s
  | .heartbeatSend t port => Sys2Proof.Machine.execHeartbeatSend t port s
  | .heartbeatRx t node port body => Sys2Proof.Machine.execHeartbeatRx t node port body s
  | .grant t src epoch count => Sys2Proof.Machine.execGrant t src epoch count s
  | .anchorLeaseExpiry t active => Sys2Proof.Machine.execAnchorLeaseExpiry t active s
  | .leaseExpiry t => Sys2Proof.Machine.execLeaseExpiry t s
  | .fenceDrainEnd t => Sys2Proof.Machine.execFenceDrainEnd t s
  | .promote t src epoch => Sys2Proof.Machine.execPromote t src epoch s
  | .demote t src epoch => Sys2Proof.Machine.execDemote t src epoch s
  | .assign t src role epoch => Sys2Proof.Machine.execAssign t src role epoch s
  | .resyncClearDone t => Sys2Proof.Machine.execResyncClearDone t s
  | .bulkComplete t => Sys2Proof.Machine.execBulkComplete t s
  | .anchorLost t => Sys2Proof.Machine.execAnchorLost t s
  | .holdConfirmTimeout t => Sys2Proof.Machine.execHoldConfirmTimeout t s
  | .pouvexFrameRx t port frame => Sys2Proof.Machine.execPouvexFrameRx t port frame s
  | .pouvexReassemblyTimeout t src seq => Sys2Proof.Machine.execPouvexReassemblyTimeout t src seq s
  | .dictReq t src seq body => Sys2Proof.Machine.execDictReq t src seq body s
  | .dictRsp t src body => Sys2Proof.Machine.execDictRsp t src body s
  | .relayResend t node => Sys2Proof.Machine.execRelayResend t node s
  | .eventRx t src body => Sys2Proof.Machine.execEventRx t src body s
  | .eventAck t n seq => Sys2Proof.Machine.execEventAck t n seq s
  | .eventResend t n => Sys2Proof.Machine.execEventResend t n s
  | .beaconSend t => Sys2Proof.Machine.execBeaconSend t s
  | .beaconRx t body => Sys2Proof.Machine.execBeaconRx t body s
  | .takeAnchorRole t src => Sys2Proof.Machine.execTakeAnchorRole t src s
  | .announceSend t => Sys2Proof.Machine.execAnnounceSend t s
  | .announceRx t port body => Sys2Proof.Machine.execAnnounceRx t port body s
  | .enrol t src hash node forward => Sys2Proof.Machine.execEnrol t src hash node forward s
  | .enrolAck t src node result => Sys2Proof.Machine.execEnrolAck t src node result s
  | .rosterLostTimeout t n => Sys2Proof.Machine.execRosterLostTimeout t n s
  | .strangerTimeout t k => Sys2Proof.Machine.execStrangerTimeout t k s
  | .reEnrolNode t src node => Sys2Proof.Machine.execReEnrolNode t src node s
  | .withdrawResend t => Sys2Proof.Machine.execWithdrawResend t s
  | .withdrawRx t src => Sys2Proof.Machine.execWithdrawRx t src s
  | .releaseNode t src node => Sys2Proof.Machine.execReleaseNode t src node s
  | .releaseRx t src flags => Sys2Proof.Machine.execReleaseRx t src flags s
  | .pllLockLost t pll => Sys2Proof.Machine.execPllLockLost t pll s
  | .pllRelock t pll => Sys2Proof.Machine.execPllRelock t pll s
  | .deviceStateRequest t src target => Sys2Proof.Machine.execDeviceStateRequest t src target s
  | .holdDrainEnd t => Sys2Proof.Machine.execHoldDrainEnd t s
  | .transitionComplete t => Sys2Proof.Machine.execTransitionComplete t s
  | .dormantEntry t => Sys2Proof.Machine.execDormantEntry t s
  | .wakeNAssert t => Sys2Proof.Machine.execWakeNAssert t s
  | .dormantWakeTimer t => Sys2Proof.Machine.execDormantWakeTimer t s
  | .sliceIdleEntry t sl => Sys2Proof.Machine.execSliceIdleEntry t sl s
  | .sliceReachesRun t sl => Sys2Proof.Machine.execSliceReachesRun t sl s
  | .frequencyLoopEval t busy0 busy1 busy2 busy3 => Sys2Proof.Machine.execFrequencyLoopEval t busy0 busy1 busy2 busy3 s
  | .voltageLoopEval t margin low high => Sys2Proof.Machine.execVoltageLoopEval t margin low high s
  | .avsbusStatusPoll t done => Sys2Proof.Machine.execAvsbusStatusPoll t done s
  | .avsbusTimeout t => Sys2Proof.Machine.execAvsbusTimeout t s
  | .placementLoopEval t => Sys2Proof.Machine.execPlacementLoopEval t s
  | .coldReset t => Sys2Proof.Machine.execColdReset t s
  | .warmReset t => Sys2Proof.Machine.execWarmReset t s
  | .warmResetRequest t src => Sys2Proof.Machine.execWarmResetRequest t src s
  | .bootStepDone t r => Sys2Proof.Machine.execBootStepDone t r s
  | .resumeBoot t src => Sys2Proof.Machine.execResumeBoot t src s
  | .flashUpdateDone t ok => Sys2Proof.Machine.execFlashUpdateDone t ok s
  | .securityVersionAdvance t src owner value => Sys2Proof.Machine.execSecurityVersionAdvance t src owner value s
  | .ownerKeyProgram t src hash => Sys2Proof.Machine.execOwnerKeyProgram t src hash s
  | .ownerCoSignature t src => Sys2Proof.Machine.execOwnerCoSignature t src s
  | .decommission t src => Sys2Proof.Machine.execDecommission t src s
  | .lowerTreeReady t => Sys2Proof.Machine.execLowerTreeReady t s
  | .leafRenewal t => Sys2Proof.Machine.execLeafRenewal t s
  | .attestationRequest t src nonce => Sys2Proof.Machine.execAttestationRequest t src nonce s
  | .reportReady t anchorSlot => Sys2Proof.Machine.execReportReady t anchorSlot s
  | .attestTokenRefill t => Sys2Proof.Machine.execAttestTokenRefill t s
  | .samplerTokenRefill t k => Sys2Proof.Machine.execSamplerTokenRefill t k s
  | .splitLogMove t => Sys2Proof.Machine.execSplitLogMove t s
  | .senseChainScan t bits => Sys2Proof.Machine.execSenseChainScan t bits s
  | .ledChainLatch t => Sys2Proof.Machine.execLedChainLatch t s
  | .modulePresenceChange t c => Sys2Proof.Machine.execModulePresenceChange t c s
  | .serviceButtonRelease t => Sys2Proof.Machine.execServiceButtonRelease t s
  | .serviceButtonLongPress t => Sys2Proof.Machine.execServiceButtonLongPress t s
  | .serviceButtonWake t => Sys2Proof.Machine.execServiceButtonWake t s
  | .identifyTimeout t => Sys2Proof.Machine.execIdentifyTimeout t s
  | .thermalSample t temps => Sys2Proof.Machine.execThermalSample t temps s
  | .configurationWrite t bit value => Sys2Proof.Machine.execConfigurationWrite t bit value s
  | .hdmDecoderCommit t d base size skip ways lock => Sys2Proof.Machine.execHdmDecoderCommit t d base size skip ways lock s
  | .perstNRelease t => Sys2Proof.Machine.execPerstNRelease t s
  | .grandmasterChange t d gm => Sys2Proof.Machine.execGrandmasterChange t d gm s
  | .receiverAdaptation t lane code => Sys2Proof.Machine.execReceiverAdaptation t lane code s
  | .judgeExceptionTaken t => Sys2Proof.Machine.execJudgeExceptionTaken t s
  | .expiryNoticeTaken t => Sys2Proof.Machine.execExpiryNoticeTaken t s
  | .ipfixMessageSend t frame => Sys2Proof.Machine.execIpfixMessageSend t frame s

end Sys2Proof.Machine
end

