-- ==== Sys2Proof/Safety.lean ====
section
/-! DEFINITION. The terms that statements about the block use: when a command acts, what it leaves apart from reports, what
the fuses may do, and what a legal state is. -/
namespace Sys2Proof.Machine

/-- The four slices, each apart from the instant since when it has been idle. -/
def State.slicesBut (s : State) : Tab Slice := (List.range 4).map fun i => (i, { s.slice i with idleSince := none })

/-- The state apart from what reporting changes: what was sent, the status words and the counters, the event log ring, the
pending interrupts, the forwarding of events, what waits on the marshal ports, and since when each slice has been idle. Any
command may change these, because any command may raise an event (16 R422); the counters have a frame of their own. -/
def State.body (s : State) : State := { s with
  out := [], evt := [], cnt := {}, wires := []
  host := { s.host with rings := s.host.rings.filter fun e => e.1 != 35, msixPending := [] }
  dom := { s.dom with seq := 0, forwards := [] }
  pair := { s.pair with lost := false }
  pow := { s.pow with slices := s.slicesBut } }

/-- The slices once those of them that `asked` names and that rest in NAP or DOZE have been asked to wake; a wake already asked
stands (02 R56, 14 R369). -/
def State.wokenSlices (s : State) (asked : Nat → Bool) : Tab Slice := s.slicesBut.map fun e =>
  (e.1, if asked e.1 = true ∧ (e.2.state = .nap ∨ e.2.state = .doze) ∧ e.2.wakeAt = none then
    { e.2 with wakeAt := some (s.now + wakeDelay e.2.state) } else e.2)

/-- A narrow or wide counter by its number (02 R47). -/
def State.tally (s : State) (n : Nat) : Nat := tget s.cnt.vals n 0

/-- The counters of reporting itself: frames sent on the marshal ports, events logged, forwarded and lost, and freezes (13 R342,
R350; 16 R414, R423). -/
def reportCounters : List Nat :=
  [Num.pouvexSent 0, Num.pouvexSent 1, Num.pouvexRelayed 0, Num.pouvexRelayed 1, Num.eventsForwarded, Num.logWritten 3,
    Num.logRingLost 3, Num.localWritten 1, Num.localLost 1, Num.freezes]

/-- The counters that time alone moves: the time of each slice in each state (14 Table 14.16), and what the mailbox resets of a
group command count when it falls due (11 R290, R306). -/
def timeCounters : List Nat :=
  ((List.range 4).flatMap fun i => (List.range 3).map (Num.timeInState i)) ++
    (List.range 64).flatMap fun c => [Num.mbAutoAcks c 0, Num.mbResets c 0, Num.mbResets c 1]

/-- What time alone leaves as it is: the body apart from the shapers, the time that each slice has spent in its state, the
processor groups and their mailboxes, whose commands fall due by the clock (08 R211, 11 R290), and the instant itself. -/
def State.still (s : State) : State :=
  { s.body with now := 0, egress := [], proc := {}, mbox := {}, pow := { s.pow with slices := [] } }

/-- The body apart from the data path: the frames, copies and queues, the egress ports, the two tables with their logs, the
version counts of the rules, the sequence engine, the samples, the mirror records, the rings of the host port, the free values
drawn, and the wake that is asked of a slice and the fill of its staging buffers. A command of the data path leaves this as it is. -/
def State.outer (s : State) : State := { s.body with
  draw := 0, host := {}, ports := [], rules := {}, fdb := {}, flow := {}, buf := {}, egress := [], queues := []
  rounds := [], red := {}, split := {}, pair := {}
  pow := { s.pow with slices := s.slicesBut.map fun e => (e.1, { e.2 with wakeAt := none, peak := 0 }) } }

/-- A command at instant `t` finds the part held in no reset (15 R386, 17 R430); the device may be DORMANT. -/
def State.upAt (s : State) (t : Nat) : Prop :=
  s.ao.coldLow = false ∧ ∀ a, s.boot.resetAt = some a → max s.now t < a

/-- A command at instant `t` finds the device neither DORMANT (14 R363) nor held in reset. -/
def State.acts (s : State) (t : Nat) : Prop := s.dormant = false ∧ s.upAt t

/-- Nothing that the end of a command would report stands over, no freeze is armed or was taken, nothing waits on a marshal port, and no
group command falls due by instant `t`: nothing but the command at `t` touches the status words and the snapshot. -/
def State.calm (s : State) (t : Nat) : Prop :=
  s.cnt.saturated = [] ∧ (s.cnt.armed = false ∧ s.cnt.grip = none) ∧ s.cnt.triggered = false ∧ s.pair.lost = false
    ∧ (∀ c ∈ s.proc.commands, max s.now t < c.at_) ∧ (s.wire 0).waiting = [] ∧ (s.wire 1).waiting = []

/-- The pipeline clock has its lock (14 R359). -/
def State.piped (s : State) : Prop := s.locked .pipeline = true

/-- Every fuse blown in `a` is blown in `b`, and every fuse counter has kept its place or risen (15 R389). -/
def FusesKept (a b : Nv) : Prop :=
  a.lifecycle ||| b.lifecycle = b.lifecycle ∧ orBytes a.ownerHash b.ownerHash = b.ownerHash
    ∧ (a.ownerSet = true → b.ownerSet = true) ∧ (a.coSign = true → b.coSign = true)
    ∧ a.galelekSv ≤ b.galelekSv ∧ a.galelekAt ≤ b.galelekAt ∧ a.ownerSv ≤ b.ownerSv ∧ a.ownerAt ≤ b.ownerAt
    ∧ a.leaf ≤ b.leaf

/-- A decommissioned device: LIFECYCLE reads 0b1111 (15 Table 15.2). -/
def State.decommissioned (s : State) : Prop := s.nv.lifecycle = 0b1111

/-- Nothing waits in the engine before a command: no COMMIT waits for a preparation (03 R76), no Pouvex request is held (13
R348). -/
def State.engineFree (s : State) : Prop := s.rules.waiting = none ∧ s.dom.requests = []

/-- The dictionary command that a row of the table stands for: its instant, its source, and what the engine is given. -/
def dictCommandOf : Instr → Option (Nat × Source × DictCommand)
  | .read t src idx sub => some (t, src, { op := .read, idx := idx.toNat, sub := sub.toNat })
  | .write t src idx sub data => some (t, src, { op := .write, idx := idx.toNat, sub := sub.toNat, data })
  | .readStaged t src idx sub => some (t, src, { op := .readStaged, idx := idx.toNat, sub := sub.toNat })
  | .commit t src g data => some (t, src, { op := .commit, sub := g.toNat, data })
  | .discard t src g data => some (t, src, { op := .discard, sub := g.toNat, data })
  | .blockOpen t src idx sub data => some (t, src, { op := .blockOpen, idx := idx.toNat, sub := sub.toNat, data })
  | .blockSeg t src idx sub seg data =>
    some (t, src, { op := .blockSeg, idx := idx.toNat, sub := sub.toNat, seg := seg.toNat, data })
  | .blockClose t src idx sub data => some (t, src, { op := .blockClose, idx := idx.toNat, sub := sub.toNat, data })
  | .blockRead t src idx sub seg => some (t, src, { op := .blockRead, idx := idx.toNat, sub := sub.toNat, seg := seg.toNat })
  | .blockCancel t src idx sub => some (t, src, { op := .blockCancel, idx := idx.toNat, sub := sub.toNat })
  | .blockReadStaged t src idx sub seg =>
    some (t, src, { op := .blockReadStaged, idx := idx.toNat, sub := sub.toNat, seg := seg.toNat })
  | .groupStop t src g => some (t, src, { op := .write, idx := 0x9100 + g, sub := 2, data := [1] })
  | .groupStart t src g => some (t, src, { op := .write, idx := 0x9100 + g, sub := 2, data := [2] })
  | .groupRestart t src g => some (t, src, { op := .write, idx := 0x9100 + g, sub := 2, data := [3] })
  | .deviceStateRequest t src target => some (t, src, { op := .write, idx := 0xC000, sub := 2, data := [target] })
  | .warmResetRequest t src => some (t, src, { op := .write, idx := 0xD000, sub := 2, data := [1] })
  | .resumeBoot t src => some (t, src, { op := .write, idx := 0xD011, sub := 0, data := [1] })
  | .securityVersionAdvance t src owner value =>
    some (t, src, { op := .write, idx := 0xD100, sub := if owner then 4 else 3, data := [value] })
  | .ownerKeyProgram t src hash => some (t, src, { op := .write, idx := 0xD100, sub := 1, data := hash })
  | .ownerCoSignature t src => some (t, src, { op := .write, idx := 0xD100, sub := 2, data := [1] })
  | .decommission t src => some (t, src, { op := .write, idx := 0xD100, sub := 7, data := leBytes 4 0x4445434D })
  | .attestationRequest t src nonce => some (t, src, { op := .write, idx := 0xD200, sub := 1, data := nonce })
  | .takeAnchorRole t src => some (t, src, { op := .write, idx := 0xB103, sub := 2, data := [1] })
  | .releaseNode t src node => some (t, src, { op := .write, idx := 0xB103, sub := 3, data := [node] })
  | .reEnrolNode t src node => some (t, src, { op := .write, idx := 0xB103, sub := 4, data := [node] })
  | _ => none

/-- The commands after which the dictionary engine goes on to serve the requests that it holds (13 R348): those that reach it,
and those that end a command which waited. -/
def servesHeld : Instr → Bool
  | .registerWrite .. => true | .dictReq .. => true
  | .marshalAnswer .. => true | .marshalServiceTimeout .. => true | .bundlePrepared .. => true | .unknownOpcode .. => true
  | i => (dictCommandOf i).isSome

/-- The commands that may blow fuses or program the flash (15 R389, R398 to R403): the boot, the flash update, the identity key,
the writes that reach 0xD100, and any command that lets the engine serve a held request, which may be such a write of the
anchor (15 Table 15.8). A cold reset makes the owner slot usable again. -/
def mayBlow : Instr → Bool
  | .coldReset .. => true | .warmReset .. => true | .bootStepDone .. => true | .flashUpdateDone .. => true
  | .leafRenewal .. => true | .reportReady .. => true | i => servesHeld i

/-- The commands that a DORMANT device answers: resets, the registers that the always-on domain serves or that read dark, the host
link, the clocks, the identity record, what wakes the device, the identity key, and the panel (00 R7, 10 R283, 14 R359 to R369,
15 R402, 17 R437). -/
def answersDormant : Instr → Bool
  | .read .. => true
  | .coldReset .. => true | .warmReset .. => true
  | .bootStepDone .. => true | .flashUpdateDone .. => true | .leafRenewal .. => true | .reportReady .. => true
  | .registerWrite .. => true | .statusClear .. => true | .holdOffEnd .. => true
  | .slowDomainWrite .. => true | .slowWriteTakesEffect .. => true | .slowDomainRead .. => true
  | .darkRead .. => true | .darkWrite .. => true
  | .hdmWrite .. => true | .hdmMeminv .. => true | .hdmDormantRead .. => true
  | .flr .. => true | .hostLinkError .. => true | .hostLinkReset .. => true | .perstNRelease .. => true
  | .configurationWrite .. => true
  | .barPoisonedWrite .. => true | .barBadSizeAccess .. => true | .barUnassignedAccess .. => true
  | .pllLockLost .. => true | .pllRelock .. => true | .transitionComplete .. => true
  | .wakeNAssert .. => true | .dormantWakeTimer .. => true | .serviceButtonWake .. => true
  | .attestTokenRefill .. => true | .lowerTreeReady .. => true
  | .senseChainScan .. => true | .modulePresenceChange .. => true | .identifyTimeout .. => true
  | .ledChainLatch .. => true | .thermalSample .. => true | _ => false

/-- The counters that the adaptive loops keep (14 Table 14.16). -/
def loopCounters : List Nat := (List.range 6).flatMap fun i => [Num.loopUp i, Num.loopDown i, Num.loopHeld i]


/-- The counters that a command's own effect may move, where it is none or few. The others, of which `none` says nothing, are the
two resets, which clear every counter, and the commands that carry frames, work on the flow table or the FDB, or reach the
dictionary engine. -/
def countersOf : Instr → Option (List Nat)
  | .blockAbandoned .. => some [] | .statusClear .. => some [] | .holdOffEnd .. => some [] | .snapshot .. => some []
  | .snapshotDump .. => some [] | .snapshotFreezeArm .. => some [] | .cntDataHiRead .. => some []
  | .slowDomainWrite .. => some [] | .slowWriteTakesEffect .. => some [] | .slowDomainRead .. => some []
  | .darkRead .. => some [] | .darkWrite .. => some [] | .watchdogExpiry .. => some [] | .watchdogRestart .. => some []
  | .linkTrainingStart .. => some [] | .partnerDetected .. => some [] | .linkUp .. => some []
  | .admissionTokenRefill .. => some [] | .judgeDeadlineExpiry .. => some [] | .hdmMeminv .. => some []
  | .deferredAddWrite .. => some [] | .ruleOpComplete .. => some [] | .ageTick .. => some [] | .fdbSearch .. => some []
  | .fdbNext .. => some [] | .flushPort .. => some [] | .fdbBadOp .. => some [] | .shaperTick .. => some []
  | .gateEntryChange .. => some [] | .preemptionVerifyDone .. => some [] | .timeCapture .. => some []
  | .holdSpanEnd .. => some [] | .wakePlanWrite .. => some [] | .hostLinkTrained .. => some [] | .hostLinkError .. => some []
  | .ringConfigWrite .. => some [] | .ringStopped .. => some [] | .ringCoalesceTimeout .. => some []
  | .txDescriptorFetch .. => some [] | .msixUnmask .. => some [] | .sallarHeartbeatSend .. => some []
  | .sallarLaneTimeout .. => some [] | .heartbeatSend .. => some [] | .heartbeatRx .. => some []
  | .anchorLeaseExpiry .. => some [] | .demote .. => some [] | .bulkComplete .. => some [] | .anchorLost .. => some []
  | .holdConfirmTimeout .. => some [] | .eventAck .. => some [] | .eventResend .. => some [] | .beaconSend .. => some []
  | .beaconRx .. => some [] | .announceSend .. => some [] | .enrol .. => some [] | .enrolAck .. => some []
  | .rosterLostTimeout .. => some [] | .strangerTimeout .. => some [] | .withdrawResend .. => some []
  | .withdrawRx .. => some [] | .releaseRx .. => some [] | .wakeNAssert .. => some [] | .dormantWakeTimer .. => some []
  | .sliceIdleEntry .. => some [] | .sliceReachesRun .. => some [] | .flashUpdateDone .. => some []
  | .lowerTreeReady .. => some [] | .attestTokenRefill .. => some [] | .samplerTokenRefill .. => some []
  | .ledChainLatch .. => some [] | .identifyTimeout .. => some [] | .hdmDecoderCommit .. => some []
  | .perstNRelease .. => some [] | .grandmasterChange .. => some [] | .expiryNoticeTaken .. => some []
  | .snapshotComplete .. => some [Num.dumpsFailed]
  | .dumpComplete .. => some [Num.dumpsDone]
  | .hdmWrite .. => some [Num.hdmWritesDiscarded]
  | .tcamScrub .. => some [Num.eccCorrected 3, Num.eccUncorrectable 3]
  | .shadowFetch .. => some [Num.shadowFailures]
  | .bufferThresholdEval .. => some loopCounters
  | .freeListRebuild .. => some [Num.freeListRebuilds, Num.eccCorrected 0, Num.eccUncorrectable 0]
  | .preemptHoldStart _ p _ => some [Num.holds p, Num.fragmentsSent p]
  | .recoveryResetTimeout _ h => some [Num.recoveryResets h]
  | .nodeTableSweepVisit .. => some [Num.nodesRemoved]
  | .barPoisonedWrite .. => some ((List.range 4).map Num.hostAccesses)
  | .barBadSizeAccess .. => some ((List.range 4).map Num.hostAccesses)
  | .barUnassignedAccess .. => some ((List.range 4).map Num.hostAccesses)
  | .hdmDormantRead .. => some (Num.hdmDormantReads :: (List.range 4).map Num.hostAccesses)
  | .groupCheckDone .. => some ((List.range 3).map Num.imagesRefused)
  | .restWait _ core _ => some [Num.restEntries (coreNumber core) 0]
  | .restSleep _ core _ => some [Num.restEntries (coreNumber core) 1]
  | .coreWake .. => some [Num.eccCorrected 5, Num.eccUncorrectable 5]
  | .coreAccessRefused .. => some [Num.eccCorrected 4, Num.eccUncorrectable 4]
  | .mbPost _ _ c _ => some [Num.mbDenied, Num.mbPosts c, Num.mbDropped c, Num.mbAutoAcks c 1]
  | .mbAck _ _ c _ _ => some [Num.mbDenied, Num.mbAcks c, Num.mbRefusedAcks c, Num.mbOrphanAcks c]
  | .mbAckcodeRead .. => some [Num.mbDenied]
  | .mbResetTx .. => some [Num.mbDenied]
  | .mbResetRx .. => some [Num.mbDenied]
  | .mbAccessDenied .. => some [Num.mbDenied]
  | .mbCrossing .. => some ((List.range 64).map Num.mbCrossings)
  | .sallarResend .. => some [Num.resends]
  | .generatorMirrorBatch .. => some ((List.range 16).map Num.recordsSent)
  | .digestEmit .. => some ((List.range 16).map Num.recordsSent)
  | .grant .. => some [Num.lateGrants, Num.grantsAccepted]
  | .leaseExpiry .. => some [Num.heldIntervals]
  | .pouvexReassemblyTimeout .. => some [Num.reassemblyFailures]
  | .dictRsp .. => some [Num.requestsServed]
  | .relayResend .. => some [Num.relayResends, Num.requestsServed, Num.relayFailures]
  | .announceRx .. => some [Num.strangersRefused]
  | .frequencyLoopEval .. => some loopCounters
  | .voltageLoopEval .. => some loopCounters
  | .placementLoopEval .. => some loopCounters
  | .leafRenewal .. => some [Num.renewals, Num.fuseFailures]
  | .splitLogMove .. => some [Num.logWritten (splitRing - 32)]
  | .senseChainScan .. => some ((List.range 34).map Num.bounces)
  | .serviceButtonRelease .. => some [Num.buttonPresses 0]
  | .serviceButtonLongPress .. => some [Num.buttonPresses 1]
  | .serviceButtonWake .. => some [Num.buttonPresses 2]
  | .thermalSample .. => some [Num.thermalWarnings]
  | .receiverAdaptation .. => some loopCounters
  | _ => none

/-- A run of the block is safe while every command is answered with a next state. -/
def Answers (r : Result) : Prop := ∃ s', r = .next s'

/-- A command runs, and the state it leaves is as `P` says. -/
def Does (c : Instr) (s : State) (P : State → Prop) : Prop := ∃ s', exec c s = .next s' ∧ P s'

/-- A source reports: PEND is set with these flags (02 R44). -/
def State.told (s : State) (n flags : Nat) : Prop :=
  (s.source n).pend = true ∧ (s.source n).flags &&& BitVec.ofNat 15 flags = BitVec.ofNat 15 flags

/-- The part has sent this. -/
def State.gave (s : State) (o : Out) : Prop := o ∈ s.out

/-- What a software request for the device state `d` has made of the state `x` (14 R364 to R366): a refusal changes nothing but
the outcome; while a transition is in progress the request waits, in place of one that software queued before; a state that
holds already completes nothing new; ACTIVE to QUIET completes at once; and any other transition begins: the slices that rest
are woken for ACTIVE and QUIET, the drain runs for HOLD and PAIR-STANDBY, and every front port goes down for DORMANT. -/
def State.requested (x s' : State) (d : DevState) : Prop :=
  (∀ code, x.powerRefusal d = some code → s'.told 0x1B7 2 ∧ s'.body = ({ x with pow.outcome := code } : State).body) ∧
  (x.powerRefusal d = none →
    (x.pow.target.isSome = true → (∀ q, x.pow.queued = some (q, false) → s'.told 0x1B7 4) ∧
      s'.body = ({ x with pow := { x.pow with queued := some (d, false), outcome := 0 } } : State).body) ∧
    (x.pow.target = none → x.pow.state = d → s'.body = ({ x with pow.outcome := 0 } : State).body) ∧
    (x.pow.target = none → x.pow.state = .active → d = .quiet → s'.told 0x1B7 1 ∧
      s'.body = { x.body with pow := { x.body.pow with
        state := .quiet, outcome := 1, drainEnd := none, doneAt := none } }) ∧
    (x.pow.target = none → x.pow.state ≠ d → x.pow.state ≠ .dormant → ¬ (x.pow.state = .active ∧ d = .quiet) →
      (d ≠ .dormant → s'.body = { x.body with pow := { x.body.pow with
        target := some (d, false), outcome := 0, doneAt := none
        drainEnd := if d = .hold ∨ d = .pairStandby then some (x.now + x.num 0xC000 5 * 1000) else none
        slices := if d = .active ∨ d = .quiet then x.wokenSlices fun _ => true else x.slicesBut } }) ∧
      (d = .dormant → (∀ p, p < 32 → (s'.port p).link = .down) ∧ s'.outer = { x.outer with pow := { x.outer.pow with
        target := some (.dormant, false), outcome := 0, doneAt := none, drainEnd := none, timer := x.num 0xC000 6 } })))

/-- A frame has gone to a marshal port: it has been sent, or it waits there behind others (13 R342). -/
def State.wired (s : State) (port : Nat) (f : WireFrame) : Prop :=
  (if f.relay then s.gave (.pouvexRelay port f.frame) else s.gave (.pouvex port f.frame)) ∨ f ∈ (s.wire port).waiting

/-- Every frame of a message has gone to a marshal port. -/
def State.sends (s : State) (port msg : Nat) (frames : List (List Byte)) : Prop :=
  ∀ f ∈ frames, s.wired port { lease := leaseClass msg, frame := f }

end Sys2Proof.Machine
end

