-- ==== Sys2Proof/Certificates/Slice0/Obligations.lean ====
section
/-! DEFINITION. The statements about the block: for each family of commands, that a command whose conditions hold completes with
the effect its rule gives it and changes nothing else; and what holds of every command and of every step. -/
open Sys2Proof Sys2Proof.Machine

/-! ### Status words, snapshots, slow domains, dark blocks and accesses that are not ordinary (02, 10, 16) -/

/-- STATUS_CLEAR: a write to a status word clears PEND and FLAGS only where its upper half is the current SEQ and is not 0
(02 R45), and nothing in the clock of an event of its source, which is applied first whether it stands before the write in the
queue or after it: what the write has cleared is set again. SEQ never changes, and nothing but that word does. -/
def Obligations.StatusWordClearsBySequence : Prop :=
  ∀ (s : State) (t : Nat) (n : Fin 1024) (v : BitVec 32), s.upAt t → s.calm t → (s.dormant = true → n.val = 0x180) →
    ((s.source n).fell = true → ∀ h, (s.source n).holdEnd = some h → max s.now t < h) →
    Does (.statusClear t n v) s fun s' =>
      s'.body = (s.enter t).body ∧ (∀ m, m ≠ n.val → s'.source m = s.source m) ∧
      (s'.source n = if (s.source n).seq ≠ 0 ∧ v.toNat / 2 ^ 16 = (s.source n).seq.toNat ∧ (s.source n).eventAt ≠ some (max s.now t)
        then { s.source n with
          pend := false, flags := 0
          cleared := some (max s.now t, (s.source n).flags ||| (s.source n).taken (max s.now t)) }
        else s.source n) ∧
      (∀ flags captured, (s'.raise n flags captured).told n (s.source n).flags.toNat)

/-- HOLD_OFF_END: at the end of a hold-off in which an event fell, SEQ advances by one, PEND and the flags of that hold-off
are set, and a new hold-off of 1 µs opens (02 R46), for a source that is logged locally or forwarded too: what that records and
sends raises other sources alone, log ring 35's and the counter saturation, whose own advance stands too while their new hold-off
lasts. Where the source is neither logged nor forwarded, no other status word changes. -/
def Obligations.HoldOffEndAdvancesSequence : Prop :=
  ∀ (s : State) (t : Nat) (n : Fin 1024) (h : Nat), s.upAt t → s.calm t → (s.dormant = true → n.val = 0x180) →
    (s.source n).fell = true → (s.source n).holdEnd = some h → h ≤ max s.now t →
    (Does (.holdOffEnd t n) s fun s' => s'.body = (s.enter t).body ∧ s'.told n (s.source n).deferred.toNat ∧
      (n.val ≠ evRing 35 → n.val ≠ 0x1C5 → s'.source n = { s.source n with
        seq := nextEventSeq (s.source n).seq, pend := true, flags := (s.source n).flags ||| (s.source n).deferred
        holdEnd := some (h + 1000000), fell := false, deferred := 0 }) ∧
      (max s.now t < h + 1000000 →
        (s'.source n).seq = nextEventSeq (s.source n).seq ∧ (s'.source n).holdEnd = some (h + 1000000))) ∧
    (bit (s.active 0xE200 2 (n / 8)) (n % 8) = false → bit (s.active 0xB000 9 (n / 8)) (n % 8) = false →
      Does (.holdOffEnd t n) s fun s' =>
        s'.body = (s.enter t).body ∧ (∀ m, m ≠ n.val → s'.source m = s.source m) ∧
        s'.source n = { s.source n with
          seq := nextEventSeq (s.source n).seq, pend := true, flags := (s.source n).flags ||| (s.source n).deferred
          holdEnd := some (h + 1000000), fell := false, deferred := 0 })

/-- SNAPSHOT, SNAPSHOT_DUMP and SNAPSHOT_FREEZE_ARM: accepted while idle, with a cut of every counter into the bank that is not
current, or with the freeze armed; dropped with OVERRUN while BUSY (02 R47, R48; 16 R413, R414). -/
def Obligations.SnapshotCommandsCutOrOverrun : Prop :=
  ∀ (s : State) (t : Nat), s.acts t → s.calm t →
    (s.cnt.phase = .idle →
      (Does (.snapshot t) s fun s' => s'.body = (s.enter t).body ∧ s'.evt = s.evt ∧
        s'.cnt = { (s.enter t).cnt with
          bank0 := if s.cnt.bank then (s.enter t).cnt.vals else s.cnt.bank0
          bank1 := if s.cnt.bank then s.cnt.bank1 else (s.enter t).cnt.vals
          cutTime := ptimeOfNs (s.enter t).ns0, overrun := false, phase := .copying false false }) ∧
      (Does (.snapshotDump t) s fun s' => s'.body = (s.enter t).body ∧ s'.evt = s.evt ∧
        s'.cnt = { (s.enter t).cnt with
          bank0 := if s.cnt.bank then (s.enter t).cnt.vals else s.cnt.bank0
          bank1 := if s.cnt.bank then s.cnt.bank1 else (s.enter t).cnt.vals
          cutTime := ptimeOfNs (s.enter t).ns0, overrun := false, phase := .copying false true }) ∧
      (Does (.snapshotFreezeArm t) s fun s' => s'.body = (s.enter t).body ∧ s'.evt = s.evt ∧
        s'.cnt = { (s.enter t).cnt with overrun := false, armed := true })) ∧
    (s.cnt.phase ≠ .idle → ∀ c ∈ [Instr.snapshot t, Instr.snapshotDump t, Instr.snapshotFreezeArm t],
      Does c s fun s' => s'.body = (s.enter t).body ∧ s'.evt = s.evt ∧
        s'.cnt = { (s.enter t).cnt with overrun := true })

/-- SNAPSHOT_COMPLETE, DUMP_COMPLETE and CNT_DATA_HI_READ: the bank flips and NUMBER advances with the snapshot event;
the dump writes every counter of the current bank to host memory; a read of CNT_DATA_HI advances CNT_SEL (02 R47, R48;
16 R413). SPLIT_LOG_MOVE: the oldest sample moves into log ring 33 as eight entries of 32 bytes, and RING_DEV advances
by 8 (16 R418). The model's readings in it: log entries 55, 59. -/
def Obligations.SnapshotsCompleteAndLogsMove : Prop :=
  (∀ (s : State) (t : Nat), s.acts t →
      (∀ frozen dump, s.cnt.phase = .copying frozen dump → Does (.snapshotComplete t) s fun s' =>
        s'.body = (s.enter t).body ∧ s'.cnt.bank = !s.cnt.bank ∧ s'.cnt.number = s.cnt.number + 1 ∧
        s'.cnt.snapTime = s.cnt.cutTime ∧ s'.told 0x186 (if frozen then 3 else 1)) ∧
      (s.cnt.phase = .dumping → Does (.dumpComplete t) s fun s' =>
        s'.body = (s.enter t).body ∧ s'.told 0x186 4 ∧
        s'.gave (.dma s.cnt.dumpAt
          ((List.range counterNumbers).map fun n => leBytes 8 (counterRead s.cnt.current n)).flatten)) ∧
      (∀ m, s.hears m = false → Does (.cntDataHiRead t m) s fun s' => s'.body = (s.enter t).body ∧ s'.cnt.sel = s.cnt.sel) ∧
      (∀ m, s.hears m = true → Does (.cntDataHiRead t m) s fun s' =>
        s'.body = (s.enter t).body ∧ s'.cnt.sel = s.cnt.sel + 1 ∧
        s'.gave (.regData (leBytes 4 (counterRead s.cnt.current s.cnt.sel.toNat / 2 ^ 32))))) ∧
  (∀ (s : State) (t : Nat) (x : List Byte) (rest : List (List Byte)), s.acts t → s.split.log = x :: rest →
      ((s.enter t).ring 33).logRoom 8 = true →
      Does (.splitLogMove t) s fun s' =>
        s'.body = { (s.enter t).body with split.log := rest, host := s'.body.host } ∧
        (s'.ring 33).dev = ((s.enter t).ring 33).dev + 8 ∧
        (∀ r, r ≠ 33 → r ≠ 35 → s'.ring r = (s.enter t).ring r) ∧
        ∀ i, i < 8 → s'.gave (.dma (((s.enter t).ring 33).addr (((s.enter t).ring 33).dev.toNat + i)) (slice x (32 * i) 32)))

/-- SLOW_DOMAIN_WRITE, SLOW_WRITE_TAKES_EFFECT and SLOW_DOMAIN_READ: a write is posted to an idle slow domain and
dropped with its record by a busy one, and one to an identity register is discarded without either; the busy bit clears when it
takes effect; a read answers after that (00 R6; 02 R49, R50). The host reaches a register over its link alone (15 R388). The model's readings in it: log entry 20. -/
def Obligations.SlowDomainsPostOneWrite : Prop :=
  ∀ (s : State) (t : Nat) (m : Master) (dom : SlowDomain) (off : BitVec 25) (v : BitVec 32), s.upAt t →
    (dom = .ao ∨ s.dormant = false) →
    (s.hears m = false → ∀ c ∈ [Instr.slowDomainWrite t m dom off v, Instr.slowDomainRead t m dom off],
      Does c s fun s' => s'.body = (s.enter t).body) ∧
    (off.toNat < 0xC → Does (.slowDomainWrite t m dom off v) s fun s' => s'.body = (s.enter t).body ∧ (s.calm t → s'.evt = s.evt)) ∧
    (s.hears m = true → 0xC ≤ off.toNat → tfind s.acc.slow (slowBit dom) = none → Does (.slowDomainWrite t m dom off v) s fun s' =>
      s'.body = { (s.enter t).body with acc.slow := tput s.acc.slow (slowBit dom) { off, value := v } }) ∧
    (s.hears m = true → 0xC ≤ off.toNat → tfind s.acc.slow (slowBit dom) ≠ none → Does (.slowDomainWrite t m dom off v) s fun s' =>
      s'.body = { (s.enter t).body with acc.slowDropAddr := off } ∧ s'.told 0x181 (2 ^ slowBit dom)) ∧
    (Does (.slowWriteTakesEffect t dom) s fun s' =>
      s'.body = { (s.enter t).body with acc.slow := tdel s.acc.slow (slowBit dom) }) ∧
    (s.hears m = true → Does (.slowDomainRead t m dom off) s fun s' =>
      s'.body = { (s.enter t).body with acc.slow := tdel s.acc.slow (slowBit dom) } ∧
      s'.gave (.regData (leBytes 4 (((s.enter t).slowSettle dom).barRead .bar0 off.toNat))))

/-- DARK_READ and DARK_WRITE: a register of a dark block reads 0xD0FF_D0FF in each half and discards writes, and
DARK_ADDR and DARK_STATUS record either (02 R52); the dark block is shown here in DORMANT, where every block outside the
always-on domain is dark (02 R51). BAR_POISONED_WRITE, BAR_BAD_SIZE_ACCESS and BAR_UNASSIGNED_ACCESS: a
write is discarded, a read returns 0 in each 4 bytes, HOST_ACC_ADDR and HOST_ACC record the access, and a poisoned write is an
advisory error that AER records; the host's accesses come over its trained link (10 R263), and without it nothing happens; an access that R268 accepts, or whose offset is assigned, is none of these (10 R268 to R270).
The model's readings in it: log entries 57, 58, 80. -/
def Obligations.DarkAndOddAccessesAreRecorded : Prop :=
  (∀ (s : State) (t : Nat) (m : Master) (bar : Bar) (off : BitVec 25) (halves : Fin 17), s.upAt t →
      s.dormant = true → neverDark bar off.toNat = false → s.hears m = true →
      (Does (.darkRead t m bar off halves) s fun s' =>
        s'.body = { (s.enter t).body with
          acc.darkAddr := BitVec.ofNat 30 (barCode bar * 2 ^ 28 + darkSource m * 2 ^ 26 + off.toNat) } ∧
        s'.told 0x180 1 ∧
        s'.gave (.regData (List.replicate halves.val [0xFF, 0xD0, 0xFF, 0xD0]).flatten)) ∧
      (Does (.darkWrite t m bar off) s fun s' =>
        s'.body = { (s.enter t).body with
          acc.darkAddr := BitVec.ofNat 30 (barCode bar * 2 ^ 28 + darkSource m * 2 ^ 26 + 2 ^ 25 + off.toNat) } ∧
        s'.told 0x180 2)) ∧
  (∀ (s : State) (t : Nat) (bar : Bar) (off : BitVec 29) (wr : Bool) (shape : BarShape), s.upAt t → s.hears .host = true →
      (Does (.barPoisonedWrite t bar off) s fun s' =>
        s'.body = { (s.enter t).body with
          acc.hostAccAddr := BitVec.ofNat 32 (barCode bar * 2 ^ 30 + 2 ^ 29 + off.toNat)
          host := { (s.enter t).body.host with errors := { s.host.errors with
            aerStatus := s.host.errors.aerStatus ||| 0x1000, aerCorrectable := s.host.errors.aerCorrectable ||| 0x2000 } } } ∧
        s'.told 0x1AA 4 ∧ s'.gave (.aer .advisory)) ∧
      (shapeAccepted shape bar off.toNat = false → Does (.barBadSizeAccess t bar off shape) s fun s' =>
        s'.body = { (s.enter t).body with
          acc.hostAccAddr := BitVec.ofNat 32 (barCode bar * 2 ^ 30 + (if shape.wr then 2 ^ 29 else 0) + off.toNat) } ∧
        s'.told 0x1AA 2 ∧
        (shape.wr = false → s'.gave (.regData (List.replicate ((shape.size + 3) / 4) [0, 0, 0, 0]).flatten))) ∧
      (shapeAccepted shape bar off.toNat = true → Does (.barBadSizeAccess t bar off shape) s fun s' =>
        s'.body = (s.enter t).body) ∧
      (barAssigned bar off.toNat = true → Does (.barUnassignedAccess t bar off wr) s fun s' => s'.body = (s.enter t).body) ∧
      (barAssigned bar off.toNat = false → Does (.barUnassignedAccess t bar off wr) s fun s' =>
        s'.body = { (s.enter t).body with
          acc.hostAccAddr := BitVec.ofNat 32 (barCode bar * 2 ^ 30 + (if wr then 2 ^ 29 else 0) + off.toNat) } ∧
        s'.told 0x1AA 1 ∧ (wr = false → s'.gave (.regData [0, 0, 0, 0])))) ∧
  (∀ (s : State) (t : Nat) (m : Master) (bar : Bar) (off : BitVec 25) (o : BitVec 29) (halves : Fin 17) (wr : Bool)
      (shape : BarShape), s.upAt t → s.hears m = false →
      ∀ c ∈ [Instr.darkRead t m bar off halves, .darkWrite t m bar off, .barPoisonedWrite t bar o,
        .barBadSizeAccess t bar o shape, .barUnassignedAccess t bar o wr], Does c s fun s' => s'.body = (s.enter t).body)

/-! ### Processor groups, REST and mailboxes (11). In every statement below, `e` is the state at the command's instant. -/

/-- WATCHDOG_EXPIRY, WATCHDOG_RESTART: an expiry sets WDOG, counts, and raises the group event; a restart clears WDOG and begins
the period now in force (11 R293); that it begins too when a checked group reaches RUNNING is log entry 60's reading.
GROUP_CHECK_DONE: a STARTING group whose firmware matches its digest runs with all its cores; one whose firmware fails stops,
with its cores held and the group event (11 R290).
CORE_ACCESS_REFUSED: an access that no row of Table 11.2 allows raises a core exception and is counted for the group (11
R294); a word of a processor memory that ECC corrected or could not correct raises memory 4's event, and the uncorrectable one
takes an exception (16 R424). -/
def Obligations.GroupsAreWatchedAndChecked : Prop :=
  (∀ (s e : State) (t : Nat) (g : Fin 3), s.acts t → e = s.enter t →
      (∀ d, (e.group g).deadline = some d → d ≤ e.now → Does (.watchdogExpiry t g) s fun s' =>
        s'.body = (e.setGroup g { e.group g with
          wdog := true, expiries := (e.group g).expiries + 1, deadline := some (d + (e.group g).period * 1000) }).body ∧
        s'.told (0x60 + g) 1) ∧
      (e.groupActs g = true → Does (.watchdogRestart t g) s fun s' =>
        s'.body = (e.setGroup g { e.group g with
          wdog := false, period := s.num (0x9100 + g) 3
          deadline := if s.num (0x9100 + g) 3 = 0 then none else some (e.now + s.num (0x9100 + g) 3 * 1000) }).body)) ∧
  (∀ (s e : State) (t : Nat) (g : Fin 3), s.acts t → e = s.enter t → (e.group g).state = .starting →
      e.locked (groupPll g) = true →
      ((tfind s.boot.digests (imgPlace (groupImage g))).isSome = true → Does (.groupCheckDone t g true) s fun s' =>
        (s'.group g).state = .running ∧ (∀ n ∈ groupCores g, (s'.core n).mode = .executing ∧ (s'.core n).runsAt = e.now) ∧
        (s'.group g).deadline = (if s.num (0x9100 + g) 3 = 0 then none else some (e.now + s.num (0x9100 + g) 3 * 1000)) ∧
        (∀ m, m ≠ g.val → s'.group m = e.group m) ∧ (∀ n, n ∉ groupCores g → s'.core n = e.core n) ∧
        s'.body = { e.body with proc := s'.proc, boot := s'.boot } ∧ (g ≠ 2 → s'.boot = s.boot)) ∧
      (∀ ok, ok = false ∨ (tfind s.boot.digests (imgPlace (groupImage g))).isSome = false →
        Does (.groupCheckDone t g ok) s fun s' =>
          s'.group g = { e.group g with state := .stopped, wdog := false, deadline := none } ∧
          (∀ n ∈ groupCores g, s'.core n = { e.core n with mode := .held, cached := false }) ∧ s'.told (0x60 + g) 4 ∧
          (∀ m, m ≠ g.val → s'.group m = e.group m) ∧ (∀ n, n ∉ groupCores g → s'.core n = e.core n) ∧
          s'.body = { e.body with proc := { e.proc with
            groups := s'.proc.groups, cores := s'.proc.cores, l2Off := g != 0 && e.proc.l2Off } })) ∧
  (∀ (s e : State) (t : Nat) (core : CoreId) (addr : Nat), s.acts t → e = s.enter t → e.executes core = true →
      (∀ wr, coreMayAccess core addr wr = false → Does (.coreAccessRefused t core addr (.barred wr)) s fun s' =>
        s'.body = (e.setGroup (coreGroup core) { e.group (coreGroup core) with
          faults := (e.group (coreGroup core)).faults + 1 }).body ∧
        s'.gave (.coreException core addr)) ∧
      (∀ bad, coreMayAccess core addr false = true → Does (.coreAccessRefused t core addr (.word bad)) s fun s' =>
        s'.body = e.body ∧ s'.told 0x1C0 (if bad then 2 else 1) ∧ (bad = true → s'.gave (.coreException core addr))))

/-- REST_WAIT, REST_SLEEP and REST_DEVICE: a core enters its mode unless an unmasked interrupt is pending,
CORE_REST_MODE shows the request, and SLEEP writes the save slot and empties the core's caches, the last core of a group the
distributor's words too, with the entry time of Table 14.7; MODE 2 of Marshal core 0 waits and makes the request for the device
state (14 R364 to R366), a reserved TARGET none, and of any other core it only waits and is counted (11 R298, R299). CORE_WAKE: an
interrupt takes a waiting core back to execution and a sleeping one through its save slot, after the delay of Table 14.7; a slot
that cannot be read holds the core and puts its group into FAULT (11 R300; 14 R373). The model's readings in it: log entries 60,
87. -/
def Obligations.CoresRestAndWake : Prop :=
  (∀ (s e : State) (t : Nat) (core : CoreId) (irq : Bool), s.acts t → e = s.enter t → e.executes core = true →
      (Does (.restWait t core irq) s fun s' =>
        s'.core (coreNumber core) = { e.core (coreNumber core) with
          rest := 0, mode := if irq then .executing else .wait } ∧
        (∀ m, m ≠ coreNumber core → s'.core m = e.core m) ∧
        s'.body = { e.body with proc := { e.proc with cores := s'.proc.cores } }) ∧
      (irq = true → Does (.restSleep t core irq) s fun s' =>
        s'.core (coreNumber core) = { e.core (coreNumber core) with rest := 1 } ∧
        (∀ m, m ≠ coreNumber core → s'.core m = e.core m) ∧
        s'.body = { e.body with proc := { e.proc with cores := s'.proc.cores } }) ∧
      (∀ all last, irq = false →
        all = decide (∀ m ∈ groupCores (coreGroup core), m ≠ coreNumber core → (e.core m).mode = .sleep) →
        last = e.draw + (saveSlot core).2 / 8 → Does (.restSleep t core irq) s fun s' =>
          s'.core (coreNumber core) = { e.core (coreNumber core) with
            rest := 1, mode := .sleep, saved := true, slotAt := e.draw, cached := false
            restsAt := e.now + if coreGroup core = 1 then 8000000
              else if coreGroup core = 0 ∧ all = true then 40000000 else 10000000 } ∧
          (∀ m, m ≠ coreNumber core → s'.core m = e.core m) ∧
          s'.group (coreGroup core) = { e.group (coreGroup core) with
            distributor := if all then some last else (e.group (coreGroup core)).distributor } ∧
          (∀ m, m ≠ coreGroup core → s'.group m = e.group m) ∧
          s'.body = { e.body with
            draw := if all then last + 512 else last
            proc := { e.proc with
              cores := s'.proc.cores, groups := s'.proc.groups
              l2Off := e.proc.l2Off || (all && coreGroup core == 0) } }) ∧
      (∀ target, core ≠ .marshal 0 → Does (.restDevice t core irq target) s fun s' =>
        s'.core (coreNumber core) = { e.core (coreNumber core) with
          rest := BitVec.ofNat 32 (target % 16 * 16 + 2), mode := if irq then .executing else .wait } ∧
        (∀ m, m ≠ coreNumber core → s'.core m = e.core m) ∧
        s'.group (coreGroup core) = { e.group (coreGroup core) with faults := (e.group (coreGroup core)).faults + 1 } ∧
        (∀ m, m ≠ coreGroup core → s'.group m = e.group m) ∧
        s'.body = { e.body with proc := { e.proc with cores := s'.proc.cores, groups := s'.proc.groups } })) ∧
  (∀ (s e x : State) (t : Nat) (irq : Bool) (target : Nat), s.acts t → e = s.enter t → e.executes (.marshal 0) = true →
      x = e.setCore 0 { e.core 0 with
        rest := BitVec.ofNat 32 (target % 16 * 16 + 2), mode := if irq then .executing else .wait } →
      (devOf (target % 16) = none → Does (.restDevice t (.marshal 0) irq target) s fun s' => s'.body = x.body) ∧
      (∀ d, devOf (target % 16) = some d → Does (.restDevice t (.marshal 0) irq target) s fun s' => x.requested s' d)) ∧
  (∀ (s e : State) (t : Nat) (core : CoreId) (ecc : Ecc), s.acts t → e = s.enter t →
      e.coresRun (coreGroup core) = true →
      ((e.core (coreNumber core)).mode = .wait → Does (.coreWake t core ecc) s fun s' =>
        s'.body = (e.setCore (coreNumber core) { e.core (coreNumber core) with
          mode := .executing, runsAt := e.now + 50000 }).body) ∧
      ((e.core (coreNumber core)).mode = .sleep → ecc = .good ∨ ecc = .corrected → Does (.coreWake t core ecc) s fun s' =>
        s'.core (coreNumber core) = { e.core (coreNumber core) with
          mode := .executing, saved := false, cached := true
          runsAt := e.now + if coreGroup core = 1 then 10000000
            else if coreGroup core = 0 ∧ e.proc.l2Off = true then 25000000 else 12000000 } ∧
        (∀ m, m ≠ coreNumber core → s'.core m = e.core m) ∧
        s'.group (coreGroup core) = { e.group (coreGroup core) with distributor := none } ∧
        (∀ m, m ≠ coreGroup core → s'.group m = e.group m) ∧
        s'.body = { e.body with
          proc := { e.proc with
            cores := s'.proc.cores, groups := s'.proc.groups, l2Off := coreGroup core != 0 && e.proc.l2Off }
          draw := if ecc = .good then s.draw else s.draw + 1 } ∧
        (ecc = .corrected → s'.told 0x1C1 1)) ∧
      ((e.core (coreNumber core)).mode = .sleep → ecc ≠ .good → ecc ≠ .corrected → Does (.coreWake t core ecc) s fun s' =>
        (s'.core (coreNumber core)).mode = .held ∧ (s'.group (coreGroup core)).state = .fault ∧
        s'.told 0x1C1 2 ∧ s'.told (0x60 + coreGroup core) 2 ∧
        s'.body = { e.body with proc := s'.proc, mbox := s'.mbox, draw := s.draw + 1 }))

/-- MB_POST and MB_ACK: a post takes one of four places, or is acknowledged at once where the receiver is stopped or is reset in
the same clock, or is dropped with OVERRUN; an acknowledge moves the oldest message's code to the sender, or is refused, and in
the clock of a receiver reset it comes first, so that its code stands in place of the reset's own (11 R304, R305, R307, R309). The model's reading of one clock: log entry 87. -/
def Obligations.MailboxesPostAndAcknowledge : Prop :=
  ∀ (s e : State) (t : Nat) (master : BitVec 4) (c : Fin 64) (tag : BitVec 16), s.acts t → e = s.enter t →
    s.hears (mbMaster master) = true → (∀ r, (e.chan c).resetAt = some r → r.at_ ≠ e.now) →
    (e.isSender master.toNat c = true → (e.chan c).places < 4 → e.receiverStopped c = false →
      (∀ n, (e.chan c).purgedAt ≠ some (e.now, n)) → Does (.mbPost t master c tag) s fun s' => s'.told (0x140 + c) 1 ∧
        s'.body = (e.setChan c { e.chan c with
          posts := (e.chan c).posts + 1
          messages := (e.chan c).messages ++
            [{ data := slice (e.chan c).txbuf 0 64, tag, epoch := (e.chan c).epoch, at_ := e.now }] }).body) ∧
    (e.isSender master.toNat c = true → (e.chan c).places < 4 → e.receiverStopped c = true →
      (∀ n, (e.chan c).purgedAt ≠ some (e.now, n)) → Does (.mbPost t master c tag) s fun s' => s'.told (0x100 + c) 1 ∧
        s'.body = (e.setChan c { e.chan c with
          posts := (e.chan c).posts + 1, acked := (e.chan c).acked + 1
          acks := (e.chan c).acks ++ [{ tag, code := 0x00E2, auto := true }] }).body) ∧
    (∀ n, e.isSender master.toNat c = true → (e.chan c).purgedAt = some (e.now, n) →
      (e.chan c).places + ((e.chan c).purged.filter MbMessage.orphan).length < 4 →
      Does (.mbPost t master c tag) s fun s' => s'.told (0x140 + c) 1 ∧ s'.told (0x100 + c) 1 ∧
        s'.body = (e.setChan c { e.chan c with
          posts := (e.chan c).posts + 1, acked := (e.chan c).acked + 1, purgedAt := some (e.now, n + 1)
          purged := (e.chan c).purged ++
            [{ data := slice (e.chan c).txbuf 0 64, tag, epoch := (e.chan c).epoch, at_ := e.now }]
          acks := (e.chan c).acks ++ [{ tag, code := 0x00E1, auto := true }] }).body) ∧
    (e.isSender master.toNat c = false → Does (.mbPost t master c tag) s fun s' => s'.told 0x1AC 1) ∧
    (e.isSender master.toNat c = true → 4 ≤ (e.chan c).places →
      Does (.mbPost t master c tag) s fun s' => s'.body = e.body ∧ s'.told (0x100 + c) 2) ∧
    (∀ (code : BitVec 16) m rest n, e.isReceiver master.toNat c = true → (e.chan c).purgedAt = some (e.now, n) →
      (e.chan c).purged = m :: rest → m.tag = tag → code.toNat / 16 ≠ 0x00E → m.orphan = false →
      Does (.mbAck t master c tag code) s fun s' => s'.told (0x100 + c) 1 ∧
        s'.body = (e.setChan c { e.chan c with
          purged := rest, purgedAt := some (e.now, n - 1)
          acks := (e.chan c).acks.take ((e.chan c).acks.length - n) ++ [{ tag, code, auto := false }] ++
            (e.chan c).acks.drop ((e.chan c).acks.length - n + 1) }).body) ∧
    ((∀ n, (e.chan c).purgedAt ≠ some (e.now, n)) →
    (∀ (code : BitVec 16) m rest, e.isReceiver master.toNat c = true → (e.chan c).messages = m :: rest → m.tag = tag →
      code.toNat / 16 ≠ 0x00E → m.orphan = false → Does (.mbAck t master c tag code) s fun s' =>
        s'.told (0x100 + c) 1 ∧
        s'.body = ((e.setChan c { e.chan c with
          messages := rest, acked := (e.chan c).acked + 1
          acks := (e.chan c).acks ++ [{ tag, code, auto := false }] }).recross c).body) ∧
    (∀ (code : BitVec 16) m rest, e.isReceiver master.toNat c = true → (e.chan c).messages = m :: rest → m.tag = tag →
      code.toNat / 16 ≠ 0x00E → m.orphan = true → Does (.mbAck t master c tag code) s fun s' =>
        s'.body = ((e.setChan c { e.chan c with messages := rest }).recross c).body) ∧
    (∀ (code : BitVec 16), e.isReceiver master.toNat c = true →
      (∀ m rest, (e.chan c).messages = m :: rest → m.tag ≠ tag ∨ code.toNat / 16 = 0x00E) →
      Does (.mbAck t master c tag code) s fun s' => s'.body = e.body ∧ s'.told (0x140 + c) 2))

/-- MB_ACKCODE_READ and MB_ACCESS_DENIED: the sender's read removes the oldest acknowledge and shows its code, 0 where there is
none; an access of any other master is recorded in MB_DENY_INFO and reads 0 (11 R303, R305).
MB_RESET_TX: a sender reset clears the buffer, discards the acknowledges, and takes back the count of those that a receiver reset
of the same clock made, marks every message an orphan, advances the epoch and reports it (11 R308, R309).
MB_RESET_RX: a receiver reset purges the messages, acknowledges each that is no orphan with 0x00E1 in posting order, advances
the epoch and reports it (11 R307). A post in the clock of a sender reset posts an orphan (11 R309). The model's reading of one clock: log entry 87. -/
def Obligations.MailboxReadsDenialsAndResets : Prop :=
  (∀ (s e : State) (t : Nat) (master : BitVec 4) (c : Fin 64), s.acts t → e = s.enter t → s.hears (mbMaster master) = true →
      (∀ a rest, e.isSender master.toNat c = true → (e.chan c).acks = a :: rest →
        Does (.mbAckcodeRead t master c) s fun s' =>
          s'.body = (e.setChan c { e.chan c with acks := rest }).body ∧ s'.gave (.regData (leBytes 4 a.code.toNat))) ∧
      (e.isSender master.toNat c = true → (e.chan c).acks = [] → Does (.mbAckcodeRead t master c) s fun s' =>
        s'.body = e.body ∧ s'.gave (.regData [0, 0, 0, 0])) ∧
      (e.isSender master.toNat c = false → Does (.mbAckcodeRead t master c) s fun s' =>
        s'.body = { e.body with mbox := { e.mbox with denyInfo := BitVec.ofNat 12 (master.toNat * 256 + c.val) } } ∧
        s'.told 0x1AC 1 ∧ s'.gave (.regData [0, 0, 0, 0])) ∧
      (∀ wr, Does (.mbAccessDenied t master c wr) s fun s' =>
        s'.body = { e.body with mbox := { e.mbox with
          denyInfo := BitVec.ofNat 12 (master.toNat * 256 + (if wr then 128 else 0) + c.val) } } ∧
        s'.told 0x1AC 1 ∧ (wr = false → s'.gave (.regData [0, 0, 0, 0])))) ∧
  (∀ (s e : State) (t : Nat) (master : BitVec 4) (c : Fin 64) (made : Nat) (r : MbReset), s.acts t → e = s.enter t →
      s.hears (mbMaster master) = true → e.isSender master.toNat c = true →
      made = ((e.chan c).purgedAt.elim 0 fun x => if x.1 = e.now then x.2 else 0) →
      (∀ x, (e.chan c).resetAt = some x → x.at_ ≠ e.now) →
      r = { at_ := e.now, txbuf := (e.chan c).txbuf
            places := (e.chan c).places + (((e.chan c).purgedNow e.now).filter MbMessage.orphan).length
            orphans := (((e.chan c).purgedNow e.now ++ (e.chan c).messages).filter MbMessage.orphan).length } →
      Does (.mbResetTx t master c) s fun s' =>
        s'.body = ((e.setChan c { e.chan c with
          txbuf := [], acks := [], epoch := (e.chan c).epoch + 1, acked := (e.chan c).acked - BitVec.ofNat 8 made
          resetAt := some r, purgedAt := (e.chan c).purgedAt.map fun x => if x.1 = e.now then (x.1, 0) else x
          messages := (e.chan c).messages.map fun m => { m with orphan := true } }).recross c).body ∧
        s'.told (0x140 + c) 8) ∧
  (∀ (s e : State) (t : Nat) (master : BitVec 4) (c : Fin 64) (tag : BitVec 16) (r : MbReset), s.acts t → e = s.enter t →
      s.hears (mbMaster master) = true → e.isSender master.toNat c = true → (e.chan c).resetAt = some r → r.at_ = e.now →
      r.places < 4 → (∀ n, (e.chan c).purgedAt ≠ some (e.now, n)) → e.receiverStopped c = false →
      Does (.mbPost t master c tag) s fun s' => s'.told (0x140 + c) 1 ∧
        s'.body = (e.setChan c { e.chan c with
          posts := (e.chan c).posts + 1, resetAt := some { r with places := r.places + 1 }
          messages := (e.chan c).messages ++
            [{ data := slice r.txbuf 0 64, tag, epoch := (e.chan c).epoch - 1, orphan := true, at_ := e.now }] }).body) ∧
  (∀ (s e : State) (t : Nat) (master : BitVec 4) (c : Fin 64) (acks : List MbAck), s.acts t → e = s.enter t →
      s.hears (mbMaster master) = true → e.isReceiver master.toNat c = true →
      acks = ((e.chan c).messages.filter fun m => !m.orphan).map (fun m => { tag := m.tag, code := 0x00E1, auto := true }) →
      Does (.mbResetRx t master c) s fun s' =>
        s'.body = ((e.setChan c { e.chan c with
          messages := [], epoch := (e.chan c).epoch + 1, acked := (e.chan c).acked + BitVec.ofNat 8 acks.length
          acks := (e.chan c).acks ++ acks, purgedAt := some (e.now, (e.chan c).madeAt e.now + acks.length)
          purged := (e.chan c).purgedNow e.now ++ (e.chan c).messages }).recross c).body ∧
        s'.told (0x100 + c) (if acks = [] then 8 else 9))

/-- MB_CROSSING (11 R310): a pair is crossed when each of its two channels has a message that is no orphan and has been
outstanding for 10 µs or more; when it becomes crossed, the status words of both endpoints of both channels advance with CROSS,
which raises the events of both masters, once for each time the pair becomes crossed. That nothing happens without a crossing is
log entry 2's reading of a command that comes early. -/
def Obligations.CrossedPairsAreReportedOnce : Prop :=
  ∀ (s e : State) (t : Nat) (c : Fin 64) (p : Nat), s.acts t → e = s.enter t → (e.bound c).valid = true →
    p = (e.bound c).partner → p < 64 → p ≠ c.val →
    ((∃ m ∈ (e.chan c).messages, m.orphan = false ∧ m.at_ + 10000000 ≤ e.now) →
      (∃ m ∈ (e.chan p).messages, m.orphan = false ∧ m.at_ + 10000000 ≤ e.now) →
      (e.chan c).crossed = false → Does (.mbCrossing t c) s fun s' =>
        s'.body = ((e.setChan c { e.chan c with crossed := true }).setChan p { e.chan p with crossed := true }).body ∧
        ∀ k ∈ [c.val, p], s'.told (0x100 + k) 4 ∧ s'.told (0x140 + k) 4 ∧
          (∀ g, masterGroup (e.bound k).sender = some g → e.groupRuns g = true → s'.gave (.groupIrq g (0x100 + k))) ∧
          (∀ g, masterGroup (e.bound k).receiver = some g → e.groupRuns g = true → s'.gave (.groupIrq g (0x140 + k)))) ∧
    ((¬ ∃ m ∈ (e.chan c).messages, m.orphan = false ∧ m.at_ + 10000000 ≤ e.now) ∨
      (¬ ∃ m ∈ (e.chan p).messages, m.orphan = false ∧ m.at_ + 10000000 ≤ e.now) ∨
      (e.chan c).crossed = true → Does (.mbCrossing t c) s fun s' => s'.body = e.body)/-! ### Links, the MAC, the parser and the classifier (03), and the release to the stages (05, 06) -/

/-- LINK_TRAINING_START, PARTNER_DETECTED, LINK_UP, LINK_DOWN: an enabled port that is down trains, one that trains comes up with
its event and its receivers at codes within their ceiling, and one that leaves up reports it and stops; a port that leaves
training runs its link-down flush too (03 R460, 04 R102, 08 R223, R225, 14 R381). The model's reading in it: log entry 86. -/
def Obligations.LinksTrainComeUpAndGoDown : Prop :=
  ∀ (s e : State) (t : Nat) (p : Fin 32), s.acts t → e = s.enter t →
    (e.portLive p = true → (e.port p).link = .down → Does (.linkTrainingStart t p) s fun s' =>
      s'.body = (e.setPort p { e.port p with link := .training }).body) ∧
    (e.portLive p = true → (e.port p).link = .down → Does (.partnerDetected t p) s fun s' =>
      s'.body = (e.setPort p { e.port p with link := .training }).body) ∧
    (e.portLive p = true → (e.port p).link = .training → Does (.linkUp t p) s fun s' =>
      s'.told p 2 ∧ (∀ q, s'.port q = if q = p.val then { e.port p with link := .up } else e.port q) ∧
      (s'.egr p).preemption = (match (e.egr p).oper.preempt with | 0 => .inactive | 2 => .active | _ => .verifying) ∧
      (∀ l, if p.val ≤ l ∧ l < p.val + modeLanes (e.portMode p) then tget s'.pow.codes l 0 ≤ e.num 0xC200 9
        else tget s'.pow.codes l 0 = tget e.pow.codes l 0 ∧ tget s'.pow.taps l (0, 0) = tget e.pow.taps l (0, 0)) ∧
      s'.body = { e.body with
        ports := s'.ports, egress := s'.egress, draw := e.draw + 3 * modeLanes (e.portMode p)
        pow := { e.body.pow with codes := s'.pow.codes, taps := s'.pow.taps } }) ∧
    ((e.port p).link = .training → e.receiving p = false →
      (e.num (0x2410 + p) 2 ≠ 1 → Does (.linkDown t p) s fun s' =>
        s'.body = (e.setPort p { e.port p with link := .down }).body) ∧
      (e.num (0x2410 + p) 2 = 1 → (∀ f ∈ e.fdb.flushes, f.port ≠ p.val ∨ f.command = true) →
        Does (.linkDown t p) s fun s' => s'.body = { (e.setPort p { e.port p with link := .down }).body with
          fdb := { e.fdb with flushes := e.fdb.flushes ++
            [{ port := p, vid := none, withPin := false, command := false }] } })) ∧
    ((e.port p).link = .up → Does (.linkDown t p) s fun s' =>
      s'.told p 1 ∧ (s'.port p).link = .down ∧ (s'.egr p).tx = none ∧ (s'.egr p).suspended = none ∧
      (s'.egr p).flushing = true ∧ (s'.egr p).preemption = .inactive ∧ s'.outer = e.outer)

/-- RX_FRAME_START and RX_FRAME_END: the first byte of a frame on a port that is up makes it a frame in staging,
refused where the device takes none in, stamped in both time domains where it is a gPTP event message, and wakes its slice unless
it is refused; at its last byte the MAC judges it by its check, its length and its link, and a gPTP answer of the link partner may
end a measurement of the link delay (03 R60 to R63; 08 R227, R228). The model's readings in it: log entries 8, 25, 46, which says
what a gPTP event message is. -/
def Obligations.FramesEnterStagingAndEnd : Prop :=
  ∀ (s e : State) (t : Nat) (p : Fin 32) (f : Nat) (v : Frame) (head rest : List Byte) (failed : Bool) (merge : RxMerge),
    s.acts t → e = s.enter t →
    ((e.port p).link = .up → e.receiving p = false → Does (.rxFrameStart t p head) s fun s' =>
      s'.body = { (e.newFrame {
        port := p, bytePs := e.bytePs p, startAt := e.now, limit := s.num (0x2000 + p) 4, bytes := head
        refused := e.intakeClosed.isSome, slice := p / 8, tIn := e.ns0
        tIn1 := if gptpEvent head then some (e.domainNs 1) else none }).body with
        pow := { e.pow with slices := s'.slicesBut } } ∧
      ∀ i, i < 4 → s'.slice i = { e.slice i with
        idleSince := (s'.slice i).idleSince
        wakeAt := if i = p.val / 8 ∧ e.intakeClosed = none ∧ (e.slice i).wakeAt = none then
            (match (e.slice i).state with | .nap => some (e.now + 40000) | .doze => some (e.now + 1500000) | _ => none)
          else (e.slice i).wakeAt }) ∧
    (e.frame f = some v → v.endAt = none → (v.bytes ++ rest).length < 64 → Does (.rxFrameEnd t f rest failed merge) s fun s' =>
      s'.body = (e.dropFrame f).body) ∧
    (∀ good, e.frame f = some v → v.endAt = none → 64 ≤ (v.bytes ++ rest).length →
      64 ≤ v.limit → v.refused = true ∨ macControl (v.bytes ++ rest) = true →
      good = (e.endOf v (v.bytes ++ rest) failed).isNone →
      Does (.rxFrameEnd t f rest failed merge) s fun s' =>
        s'.body = { (e.dropFrame f).body with ports := s'.ports, draw := s'.draw } ∧
        (∀ q, q ≠ v.port → s'.port q = e.port q) ∧
        s'.port v.port = { e.port v.port with
          gptpIn := if good then v.tIn1.elim (e.port v.port).gptpIn fun n => (v.tIn, n) else (e.port v.port).gptpIn
          linkDelay := (s'.port v.port).linkDelay } ∧
        (good = false ∨ (∀ ty n, gptpOf (v.bytes ++ rest) = some (ty, n) → ty ≠ 3 ∧ ty ≠ 10) →
          s'.draw = e.draw ∧ (s'.port v.port).linkDelay = (e.port v.port).linkDelay)) ∧
    (e.frame f = some v → v.endAt = none → 64 ≤ (v.bytes ++ rest).length → v.refused = false →
      macControl (v.bytes ++ rest) = false → v.stage = .staging → v.stagingDrop = false → v.learn = none →
      v.refresh = none → (∀ d ∈ s.flow.deltas, d.frame ≠ f) → (∀ d ∈ s.flow.drafts, d.first.frame ≠ f) →
      (∀ x ∈ s.flow.pat, x.2.first.frame ≠ f) → (∀ c ∈ s.buf.copies, c.2.frame ≠ f) →
      e.sliceRuns v.slice = true → 64 ≤ v.limit → Does (.rxFrameEnd t f rest failed merge) s fun s' =>
        s'.frame f = some { v with
          endAt := some e.now, bad := e.endOf v (v.bytes ++ rest) failed
          bytes := if v.limit < (v.bytes ++ rest).length
            then (v.bytes ++ rest).take (v.limit + 1) else v.bytes ++ rest } ∧
        (isHsr (e.redMode v.port) = false → e.endOf v (v.bytes ++ rest) failed =
          (if v.limit < (v.bytes ++ rest).length then some .oversize
          else if failed then some .link
          else if leVal ((v.bytes ++ rest).drop ((v.bytes ++ rest).length - 4)) =
              crc32 ((v.bytes ++ rest).take ((v.bytes ++ rest).length - 4)) then none
          else if leVal ((v.bytes ++ rest).drop ((v.bytes ++ rest).length - 4)) =
              crc32 ((v.bytes ++ rest).take ((v.bytes ++ rest).length - 4)) ^^^ 0xFFFFFFFF then some .stomp
          else some .fcs)) ∧
        (∀ i, i < 4 → s'.slice i = { e.slice i with idleSince := (s'.slice i).idleSince, peak := (s'.slice i).peak }) ∧
        s'.body = { e.body with
          ports := s'.ports, draw := s'.draw, buf := { e.buf with frames := s'.buf.frames }
          pow := { e.pow with slices := s'.slicesBut } })

/-- PARSE: the oldest frame of a port whose parse bytes are in staging takes the next number of its slice and the
current version slot and is parsed; where the device takes no frame in, it is discarded (03 R61, R64 to R69, R73). The
model's readings in it: log entry 23. -/
def Obligations.ParsingNumbersFrames : Prop :=
  ∀ (s e : State) (t f : Nat) (v : Frame), s.acts t → s.piped → e = s.enter t →
    e.frame f = some v → e.nextStaged v.port = some f → e.sliceRuns v.slice = true →
    e.parseReady v (s.num (0x2000 + v.port) 8) = true →
    (e.intakeClosed = none → (e.parsed v (s.num (0x2000 + v.port) 8)).exc = 0 → Does (.parse t f) s fun s' =>
      s'.frame f = some { v with
        p := e.parsed v (s.num (0x2000 + v.port) 8), iseq := tget e.buf.iseq v.slice 0, slot := e.currentSlot
        stage := .classifying } ∧
      tget s'.buf.iseq v.slice 0 = tget e.buf.iseq v.slice 0 + 1 ∧
      s'.verSlot e.currentSlot = { e.verSlot e.currentSlot with frames := (e.verSlot e.currentSlot).frames + 1 } ∧
      (∀ i, i < 4 → s'.slice i = { e.slice i with idleSince := (s'.slice i).idleSince, peak := (s'.slice i).peak }) ∧
      s'.body = { e.body with
        ports := s'.ports, rules := s'.rules, buf := { e.buf with frames := s'.buf.frames, iseq := s'.buf.iseq }
        pow := { e.pow with slices := s'.slicesBut } }) ∧
    (e.intakeClosed.isSome = true → Does (.parse t f) s fun s' =>
      s'.body = (if v.endAt.isSome then e.dropFrame f else e.setFrame f { v with refused := true }).body)

/-- CLASSIFICATION_DONE: a frame whose table reads are clean takes its VID, zone and class, and the action of the lowest row that matches its key, or the
default action of its version; the rows stand in the order of their numbers, as every write keeps them; a frame whose rule drops it becomes a void entry (03 R70 to R72). -/
def Obligations.ClassificationGivesTheRowsAction : Prop :=
  ∀ (s e : State) (t f : Nat) (v : Frame) (vid zone : Nat) (key : BitVec 512), s.acts t → s.piped → e = s.enter t →
    e.frame f = some v → v.stage = .classifying → e.redMode v.port = 0 → vid = e.classVid v → zone = e.vlanZone vid →
    e.typeRefused v = false → bit (e.vlanMembers vid) v.port = true →
    key = classKey v.port v.p (s.num (0x2000 + v.port) 9 == 1) vid zone →
    (s.rules.rows.Pairwise fun a b => a.1 < b.1) →
    (∀ n r, tfind s.rules.rows n = some r → r.hits v.slot key = true →
      (∀ m w, m < n → tfind s.rules.rows m = some w → w.hits v.slot key = false) → Does (.classificationDone t { f := f }) s fun s' =>
      (∃ sample, s'.frame f = some { v with
        vid, zone, row := some n, action := r.action, cls := (actTc r.action).getD (e.portClass v)
        stage := .classified, reason := if actVerdict r.action = 1 then 1 else v.reason, sample }) ∧
      s'.body = { e.body with split := s'.split, buf := { e.buf with frames := s'.buf.frames } }) ∧
    ((∀ m w, tfind s.rules.rows m = some w → w.hits v.slot key = false) → Does (.classificationDone t { f := f }) s fun s' =>
      (∃ sample, s'.frame f = some { v with
        vid, zone, row := none, action := (e.verSlot v.slot).action
        cls := (actTc (e.verSlot v.slot).action).getD (e.portClass v), stage := .classified
        reason := if actVerdict (e.verSlot v.slot).action = 1 then 1 else v.reason, sample }) ∧
      s'.body = { e.body with split := s'.split, buf := { e.buf with frames := s'.buf.frames } })

/-- REORDER_RELEASE: a slice releases its classified frames in number order; a void entry goes without a number of its order
domain, any other takes the next one; a frame whose rule names no flow policy is judged at once, and any other whose layers give
a key enters the flow stage under it (03 R70, 05 R118, 06 R144, 07 R188).
FLOW_VERDICT: a frame that waits and is due, its reads clean, has its verdict from the head that a cache returned, and leaves the flow stage; a
record that is live takes the frame in: the frame carries its tail, it is EXPIRING no longer, and a delta dated now waits for
the frame's end; under verdict drop the frame goes (05 R119, 06 R147, R166). The model's readings in it: log entry 22. -/
def Obligations.FramesAreReleasedAndJudged : Prop :=
  (∀ (s e : State) (t : Nat) (sl : Fin 4) (words : List (Nat × Bool)) (f : Nat) (v : Frame), s.acts t → s.piped →
      e = s.enter t →
      (e.buf.frames.find? fun x => x.2.slice == sl.val && x.2.iseq == tget e.buf.release sl.val 0 && x.2.stage == .classified)
        = some (f, v) →
      (v.reason ≠ 0 → Does (.reorderRelease t { slice := sl, words }) s fun s' =>
        tget s'.buf.release sl.val 0 = tget e.buf.release sl.val 0 + 1 ∧ s'.buf.oseq = e.buf.oseq ∧
        (actMirror v.action = none → ∀ w, s'.frame f = some w → w.stage = .gone) ∧ s'.outer = e.outer) ∧
      (v.reason = 0 → Does (.reorderRelease t { slice := sl, words }) s fun s' =>
        tget s'.buf.release sl.val 0 = tget e.buf.release sl.val 0 + 1 ∧
        tget s'.buf.oseq v.dom 0 = tget e.buf.oseq v.dom 0 + 1 ∧ s'.outer = e.outer) ∧
      (v.reason = 0 → v.toHost = true ∨ Pol.ktype (e.policyEntry (actPolicy v.action)) = 0 →
        Does (.reorderRelease t { slice := sl, words }) s fun s' =>
          (∀ w, s'.frame f = some w → w.verdictIn = true) ∧ s'.flow.entered = e.flow.entered ∧ s'.outer = e.outer) ∧
      (∀ pol l k mark, v.reason = 0 → v.toHost = false → pol = e.policyEntry (actPolicy v.action) → Pol.ktype pol ≠ 0 →
        l = (v.p.layer (Pol.inner pol)).2 → flowKey pol v (e.reverse l v.zone).resolved = some (k, mark) →
        Does (.reorderRelease t { slice := sl, words }) s fun s' =>
          s'.flow.entered = e.flow.entered ++ [f] ∧
          (∃ w, s'.frame f = some w ∧ w.key = some k ∧ w.reverse = mark) ∧ s'.outer = e.outer)) ∧
  (∀ (s e : State) (t f : Nat) (v : Frame) (h : BitVec 512), s.acts t → s.piped → e = s.enter t →
      e.frame f = some v → v.awaits = true → e.verdictDue f v = true → v.head = some h →
      (Does (.flowVerdict t f { ecc := .good }) s fun s' =>
        (∀ w, s'.frame f = some w → w.verdictIn = true ∨ w.stage = .gone) ∧ f ∉ s'.flow.entered ∧ s'.outer = e.outer) ∧
      (∀ x, Hd.poison h = false → e.slotOfTail (Hd.tail h) = some x → Hd.valid (e.headAt x) = true →
        Hd.key (e.headAt x) = Hd.key h → v.ahead = false →
        (Does (.flowVerdict t f { ecc := .good }) s fun s' =>
          (∀ w, s'.frame f = some w → w.tail = some (Hd.tail h)) ∧ Hd.state (s'.headAt x) ≠ 1 ∧ s'.outer = e.outer) ∧
        (Hd.verdict h = 1 → actVerdict v.action ≠ 3 → actMirror v.action = none →
          (e.action (Hd.action h)).mirror = none → v.endAt = none → Does (.flowVerdict t f { ecc := .good }) s fun s' =>
            (∀ w, s'.frame f = some w → w.stage = .gone) ∧
            (∃ d ∈ s'.flow.deltas, d.frame = f ∧ d.loc = .tail (Hd.tail h) ∧ d.seen = e.us40) ∧ s'.outer = e.outer)))
/-! ### The flow table (05, 06) and the host's view of it (10) -/

/-- While a flow command is in progress every other is dropped with OVERRUN (05 R137). FLOW_SEARCH, FLOW_NEXT and
FLOW_BAD_OP: a search shows the record of a key with code 0x00, or 0x01 where there is none; NEXT fills its buffer and
moves its cursor; an OP that names no command completes with code 0x04 (05 R137 to R139). A search poisons a record whose word it
finds bad (05 R133), and while the clock of the memory controllers is gated a command waits (14 R359). The host gives a command
over its link alone. FLUSH_MATCH and
FLUSH_MATCH_COMPLETE: an accepted flush is busy from index 0; where it does not go by way of the export it reaches the
last tail and completes, by the key and the mask that it began with (05 R140). The model's readings in it: log entry 31. -/
def Obligations.FlowSearchesAndFlushesRun : Prop :=
  (∀ (s e : State) (t : Nat) (m : FlowAccess) (a b d : Bool) (n : BitVec 10) (op : BitVec 4), s.acts t → e = s.enter t →
      ∀ c ∈ [Instr.flowSearch t m, .flowNext t m a n, .flowInsert t m a, .flowDelete t m, .deleteTail t m, .retire t m,
        .flushMatch t m a b d n, .deleteSlot t m, .flowBadOp t m op],
      (s.hears m.m = false → Does c s fun s' => s'.body = e.body) ∧
      (s.hears m.m = true → s.flow.busy = true → Does c s fun s' => s'.body = e.body ∧ s'.told 0x197 4) ∧
      (s.hears m.m = true → s.flow.busy = false → s.locked .memory = false → Does c s fun s' =>
        ∃ j : FlowJob, s'.flow.work = .gated j ∧ j.key = s.flow.key ∧ j.mask = s.flow.mask ∧ j.head = s.flow.headReg ∧
          j.tail = s.flow.tailReg ∧ j.cursor = s.flow.cursor.toNat ∧ j.found = m.found ∧
          s'.body = { e.body with flow := { s.flow with
            flightHigh := s'.flow.flightHigh, busy := true, count := 0, work := .gated j } })) ∧
  (∀ (s e : State) (t : Nat) (m : FlowAccess) (x : Nat) (h : BitVec 512), s.acts t → e = s.enter t → s.flow.busy = false →
      s.hears m.m = true → s.locked .memory = true → m.found = [{ ecc := .verdict, slot := some x }] →
      Ky.bad s.flow.key = false → s.findHead s.flow.key = some (x, h) → x ∈ s.candidates s.flow.key →
      (∀ c ∈ s.flow.cam, c.src ≠ x) → Does (.flowSearch t m) s fun s' =>
        s'.headAt x = setFld h 1 1 1 ∧ s'.flow.headReg = setFld h 1 1 1 ∧ s'.flow.code = 0 ∧ s'.outer = e.outer) ∧
  (∀ (s e : State) (t : Nat) (m : FlowAccess), s.acts t → e = s.enter t → s.flow.busy = false →
      s.hears m.m = true → s.locked .memory = true → (∀ r ∈ m.found, r.ecc = .good) →
      (∀ x h, Ky.bad s.flow.key = false → s.findHead s.flow.key = some (x, h) → Does (.flowSearch t m) s fun s' =>
        s'.told 0x197 1 ∧ s'.body = { e.body with flow := { s.flow with
          flightHigh := s'.flow.flightHigh, headReg := h, tailReg := tget s.flow.tails (Hd.tail h) 0, index := BitVec.ofNat 27 (Hd.tail h)
          count := 0, code := 0, work := .none } }) ∧
      (Ky.bad s.flow.key = false → s.findHead s.flow.key = none → Does (.flowSearch t m) s fun s' =>
        s'.told 0x197 3 ∧ s'.body = { e.body with flow := { s.flow with flightHigh := s'.flow.flightHigh, count := 0, code := 1, work := .none } }) ∧
      (Ky.bad s.flow.key = true → Does (.flowSearch t m) s fun s' =>
        s'.told 0x197 3 ∧ s'.body = { e.body with flow := { s.flow with flightHigh := s'.flow.flightHigh, count := 0, code := 4, work := .none } }) ∧
      (∀ byPolicy policy l next, s.flow.cursor.toNat ≤ 67108864 →
        s.flowScan (fun h => !byPolicy || Hd.policy h == policy.toNat) (min 67108864 (s.flow.cursor.toNat + 4096))
          (s.flow.backmap.filter fun x => decide (s.flow.cursor.toNat ≤ x.1)) 16 = (l, next) →
        Does (.flowNext t m byPolicy policy) s fun s' =>
          s'.told 0x197 1 ∧ s'.body = { e.body with flow := { s.flow with
            flightHigh := s'.flow.flightHigh, nextBuf := (l.map fun x => s.nextSlot x.1 x.2).flatten, cursor := BitVec.ofNat 27 next
            count := BitVec.ofNat 5 l.length, code := 0, work := .none } }) ∧
      (∀ op, Does (.flowBadOp t m op) s fun s' =>
        s'.told 0x197 3 ∧ s'.body = { e.body with flow := { s.flow with flightHigh := s'.flow.flightHigh, count := 0, code := 4, work := .none } })) ∧
  (∀ (s e : State) (t : Nat) (m : FlowAccess) (withPin viaExport byPolicy : Bool) (policy : BitVec 10) (j : FlowJob),
      s.acts t → e = s.enter t → s.locked .memory = true →
      (s.flow.busy = false → s.hears m.m = true → Does (.flushMatch t m withPin viaExport byPolicy policy) s fun s' =>
        s'.body = { e.body with flow := { s.flow with
          flightHigh := s'.flow.flightHigh, busy := true, count := 0, index := 0
          work := .flush {
            cmd := .flush withPin viaExport byPolicy policy.toNat, cursor := s.flow.cursor.toNat, key := s.flow.key
            mask := s.flow.mask, head := s.flow.headReg, tail := s.flow.tailReg, found := m.found, place := 0 } } }) ∧
      (∀ n, s.flow.work = .flush j → j.cmd = .flush withPin false byPolicy n → Does (.flushMatchComplete t) s fun s' =>
        s'.flow.index = 67108864 ∧ s'.flow.busy = false ∧ s'.flow.code = 0 ∧ s'.flow.work = .none ∧ s'.told 0x197 1 ∧
        s'.outer = e.outer))

/-- FLOW_INSERT: where the key has a record its RW fields are replaced; otherwise the record is placed in the first
free slot of its candidates with a tail drawn from the free list (05 R127, R138). FLOW_DELETE, DELETE_TAIL, RETIRE and
DELETE_SLOT: the record goes, head, back map and tail, and its index enters the free list; RETIRE deletes only a record
that is still EXPIRING, and completes with code 0x05 otherwise (05 R129, R131, R138). The model's readings in it: log
entries 28, 29. -/
def Obligations.FlowInsertsAndDeletesMoveRecords : Prop :=
  (∀ (s e : State) (t : Nat) (m : FlowAccess) (initTail : Bool), s.acts t → e = s.enter t → s.flow.busy = false →
      s.hears m.m = true → s.locked .memory = true → (∀ r ∈ m.found, r.ecc = .good) →
      e.insertBad s.flow.headReg = false → e.hwPending (Hd.key s.flow.headReg) = false →
      (∀ x old, e.findHead (Hd.key s.flow.headReg) = some (x, old) → (∀ c ∈ s.flow.cam, c.src ≠ x) →
        Does (.flowInsert t m initTail) s fun s' =>
          s'.headAt x = mergeBits Hd.rwMask old s.flow.headReg ∧ s'.flow.index = BitVec.ofNat 27 (Hd.tail old) ∧
          s'.flow.code = 0 ∧ s'.flow.busy = false ∧ s'.told 0x197 1 ∧ s'.outer = e.outer) ∧
      (∀ n r x, e.findHead (Hd.key s.flow.headReg) = none → e.nextTail = some (n, r) →
        s.flow.inserts.length < insertShare →
        (e.candidates (Hd.key s.flow.headReg)).find? e.slotFree = some x →
        Does (.flowInsert t m initTail) s fun s' =>
          tget s'.flow.backmap n 0 = backWord x ∧ Hd.valid (s'.headAt x) = true ∧ Hd.tail (s'.headAt x) = n % 2 ^ 27 ∧
          Hd.key (s'.headAt x) = Hd.key s.flow.headReg ∧ s'.flow.index = BitVec.ofNat 27 n ∧
          s'.flow.code = 0 ∧ s'.flow.busy = false ∧ s'.told 0x197 1 ∧ s'.outer = e.outer)) ∧
  (∀ (s e : State) (t n x : Nat) (h : BitVec 512) (m : FlowAccess), s.acts t → e = s.enter t → s.flow.busy = false →
      s.hears m.m = true → s.locked .memory = true → (∀ r ∈ m.found, r.ecc = .good) →
      n < 67108864 → s.slotOfTail n = some x → s.headAt x = h → Hd.valid h = true → Hd.tail h = n →
      (∀ c ∈ s.flow.cam, c.src ≠ x) →
      (Ky.bad s.flow.key = false → s.findHead s.flow.key = some (x, h) → Does (.flowDelete t m) s fun s' =>
        s'.headAt x = 0 ∧ s'.slotOfTail n = none ∧ tfind s'.flow.tails n = none ∧ (n, e.now) ∈ s'.flow.free.young ∧
        s'.flow.index = BitVec.ofNat 27 n ∧ s'.flow.code = 0 ∧ s'.told 0x197 1 ∧ s'.outer = e.outer) ∧
      (s.flow.cursor.toNat = n → Does (.deleteTail t m) s fun s' =>
        s'.headAt x = 0 ∧ s'.slotOfTail n = none ∧ tfind s'.flow.tails n = none ∧ (n, e.now) ∈ s'.flow.free.young ∧
        s'.flow.index = BitVec.ofNat 27 n ∧ s'.flow.code = 0 ∧ s'.told 0x197 1 ∧ s'.outer = e.outer) ∧
      (s.flow.cursor.toNat = n → Hd.state h = 1 → Does (.retire t m) s fun s' =>
        s'.headAt x = 0 ∧ s'.slotOfTail n = none ∧ tfind s'.flow.tails n = none ∧ (n, e.now) ∈ s'.flow.free.young ∧
        s'.flow.index = BitVec.ofNat 27 n ∧ s'.flow.code = 0 ∧ s'.told 0x197 1 ∧ s'.outer = e.outer) ∧
      (s.flow.cursor.toNat = n → Hd.state h ≠ 1 → Does (.retire t m) s fun s' =>
        s'.told 0x197 3 ∧ s'.body = { e.body with flow := { s.flow with flightHigh := s'.flow.flightHigh, count := 0, code := 5, work := .none } }) ∧
      (s.flow.cursor.toNat = x → Does (.deleteSlot t m) s fun s' =>
        s'.headAt x = 0 ∧ s'.slotOfTail n = none ∧ tfind s'.flow.tails n = none ∧ (n, e.now) ∈ s'.flow.free.young ∧
        s'.flow.index = BitVec.ofNat 27 n ∧ s'.flow.code = 0 ∧ s'.told 0x197 1 ∧ s'.outer = e.outer))

/-- FLOW_INSERT_PLACE and RELOCATION_MOVE: an admission whose candidates hold a free slot is placed there; a move that
completes puts the head at its destination, clears its source and turns the back map, and the insert goes on (05 R127,
R128). JUDGE_DEADLINE_EXPIRY, ADMISSION_TOKEN_REFILL, JUDGE_EXCEPTION_TAKEN and EXPIRY_NOTICE_TAKEN: an entry past its
deadline is dropped with its gathered values; the bucket fills at its rate up to its depth; a record taken leaves its
queue while the Judges run, and an exception that a policy of the absent owner program claims is inserted with the policy's FAIL
verdict (05 R124, R125; 11 R292, R295 to R297). The model's readings in it: log entries 32, 87. -/
def Obligations.AdmissionsArePlacedAndTimed : Prop :=
  (∀ (s e : State) (t : Nat) (i : Insert) (turn : InsertTurn), s.acts t → s.piped → s.locked .memory = true →
      e = s.enter t → (∀ r ∈ turn.found, r.ecc = .good) →
      (∀ x, e.flow.inserts.find? (fun j => j.key == turn.key && !j.live && e.insertServed j) = some i → i.path = [] →
        i.command = false → e.findHead i.key = none → e.flow.work = .none → e.pair.accepted = [] →
        (e.candidates i.key).find? e.slotFree = some x → Does (.flowInsertPlace t turn) s fun s' =>
          tget s'.flow.backmap i.tail 0 = backWord x ∧ Hd.valid (s'.headAt x) = true ∧
          (∀ j ∈ s'.flow.inserts, j.tail ≠ i.tail) ∧ s'.outer = e.outer) ∧
      (∀ hop rest c, s.flow.inserts.find? (fun j => j.key == turn.key && j.live) = some i → i.path = hop :: rest →
        s.flow.cam.find? (fun c => c.src == hop.src) = some c → c.src ≠ c.dst → Hd.tail c.copy < 67108864 →
        Hd.keybad c.copy = false →
        (e.retireMove c).headAt c.dst = setFld c.copy 5 1 (1 - Hd.alt c.copy) ∧ (e.retireMove c).headAt c.src = 0 ∧
        tget (e.retireMove c).flow.backmap (Hd.tail c.copy) 0 = backWord c.dst ∧ c ∉ (e.retireMove c).flow.cam ∧
        ((e.retireMove c).flow.inserts.find? (fun j => j.tail == i.tail) = none → Does (.relocationMove t turn) s fun s' =>
          s'.body = (e.retireMove c).body) ∧
        (∀ j, (e.retireMove c).flow.inserts.find? (fun j => j.tail == i.tail) = some j →
          Does (.relocationMove t turn) s fun s' => s'.body = (((e.retireMove c).insertTurn j).resumeInsert.drain).body))) ∧
  (∀ (s e : State) (t : Nat), s.acts t → e = s.enter t →
      (∀ (key : BitVec 320) i p d, s.flow.pat.find? (fun x => x.2.key == key) = some (i, p) → p.tail = none →
        p.deadline = some d → d ≤ e.now → Does (.judgeDeadlineExpiry t key) s fun s' =>
          s'.body = { e.body with flow := { s.flow with
            pat := tdel s.flow.pat i, deltas := s.flow.deltas.filter fun x => x.loc != .judge key } }) ∧
      (Does (.admissionTokenRefill t) s fun s' =>
        s'.body = { e.body with flow := { s.flow with
          tokens := min (s.num 0x3002 2 * 10 ^ 12) (s.flow.tokens + s.num 0x3002 1 * (e.now - s.flow.refillAt))
          refillAt := e.now } }) ∧
      (e.groupActs 2 = true →
        (s.flow.exceptions = [] → Does (.judgeExceptionTaken t) s fun s' => s'.body = e.body) ∧
        (∀ r rest, s.flow.exceptions = r :: rest →
          (e.ownerless (leAt r 40 2 % 1024) = false → Does (.judgeExceptionTaken t) s fun s' =>
            s'.body = { e.body with flow := { s.flow with exceptions := rest } }) ∧
          (e.ownerless (leAt r 40 2 % 1024) = true → s.flow.busy = true → Does (.judgeExceptionTaken t) s fun s' =>
            s'.body = e.body) ∧
          (e.ownerless (leAt r 40 2 % 1024) = true → s.flow.busy = false → s.locked .memory = true → Does (.judgeExceptionTaken t) s fun s' =>
            s'.flow.exceptions = rest ∧ s'.flow.headReg = e.defaultHead r ∧ s'.outer = e.outer)) ∧
        (Does (.expiryNoticeTaken t) s fun s' =>
          s'.body = { e.body with flow := { s.flow with notices := s.flow.notices.drop 1 } })) ∧
      (e.groupActs 2 = false →
        (Does (.judgeExceptionTaken t) s fun s' => s'.body = e.body) ∧
        (Does (.expiryNoticeTaken t) s fun s' => s'.body = e.body)))

/-- SWEEP_VISIT and SWEEP_RESUME: the sweep passes a record that is not expired, deletes an expired one that is not exported,
and at a queue with room again gives the stalled record its notice and EXPIRING (05 R130 to R132).
HDM_READ, HDM_WRITE, HDM_MEMINV and HDM_DORMANT_READ: a read returns the line as it stands, a write is discarded and recorded,
MemInv is answered, and in DORMANT a read returns 0xD0FF_D0FF and is recorded (05 R135, R136; 10 R269, R272); a read waits while
the clock of the memory controllers is gated (14 R359). The model's readings in it: log entry 85, on the mark of a transaction in
flight, and 56, on the offsets of the view. -/
def Obligations.TheSweepAndTheHostSeeTheRecords : Prop :=
  (∀ (s e : State) (t n x : Nat) (w : BitVec 32) (h : BitVec 512), s.acts t → e = s.enter t → e.learningRuns = true →
      e.recordOf n = some (x, h) →
      (s.piped → s.locked .memory = true → s.flow.stalled = none → e.sweepNext = some (n, w) → s.num 0x3500 1 = 0 →
        e.recordExpired h (tget s.flow.tails n 0) = false → Does (.sweepVisit t {}) s fun s' =>
          s'.body = ((e.noteFlight 1).sweepPast n).body) ∧
      (s.piped → s.locked .memory = true → s.flow.stalled = none → e.sweepNext = some (n, w) →
        e.recordExpired h (tget s.flow.tails n 0) = true → Hd.exports h = false → Hd.valid h = true → Hd.tail h = n →
        (∀ c ∈ s.flow.cam, c.src ≠ x) → Does (.sweepVisit t {}) s fun s' =>
          s'.headAt x = 0 ∧ s'.slotOfTail n = none ∧ tfind s'.flow.tails n = none ∧ s'.outer = e.outer) ∧
      (s.locked .memory = true → s.flow.stalled = some n → s.flow.notices.length < 65536 → e.recordExpired h (tget s.flow.tails n 0) = true →
        Hd.exports h = true → Hd.state h ≠ 1 → Does (.sweepResume t) s fun s' =>
          s'.flow.stalled = none ∧ s'.headAt x = setFld h 3 2 1 ∧
          s'.flow.notices = s.flow.notices ++ [e.noticeBytes n 1 (setFld h 3 2 1)] ∧
          s'.body = { e.body with flow := s'.flow })) ∧
  (∀ (s e : State) (t addr off : Nat), s.upAt t → e = s.enter t → e.hdmOffset addr = some off →
      (s.dormant = false → s.locked .memory = false → Does (.hdmRead t addr .good) s fun s' =>
        s'.body = { e.body with flow := { s.flow with hdmWaits := s.flow.hdmWaits ++ [(off, .good)] } }) ∧
      (s.dormant = false → s.locked .memory = true → Does (.hdmRead t addr .good) s fun s' =>
        s'.body = (e.noteFlight 1).body ∧ s'.gave (.memData false (e.hdmLine (alignDown off 64)))) ∧
      (Does (.hdmWrite t addr) s fun s' =>
        s'.body = { e.body with flow := { s.flow with hdmLine := BitVec.ofNat 29 (off / 64) } } ∧
        s'.told 0x198 1 ∧ s'.gave .memCmp) ∧
      (Does (.hdmMeminv t addr) s fun s' => s'.body = e.body ∧ s'.gave .memCmp) ∧
      (s.dormant = true → Does (.hdmDormantRead t addr) s fun s' =>
        s'.body = { e.body with
          acc.hostAccAddr := BitVec.ofNat 32 (3 * 2 ^ 30 + off / 64 % 2 ^ 29) } ∧
        s'.told 0x1AA 8 ∧ s'.gave (.memData false (List.replicate 16 [0xFF, 0xD0, 0xFF, 0xD0]).flatten)))


/-! ### The switch core and the egress (07, 08) -/

/-- ANNOUNCEMENT_ARRIVE and GAP_TIMEOUT: a VOID that is next in number order moves the expected number past it, an
ARRIVE puts its copies at the tails of their queues, and an announcement that waited for the gap timeout is reached by
a skip with its event (07 R189, R190). The model's readings in it: log entry 41. -/
def Obligations.PhotoFinishReleasesInOrder : Prop :=
  ∀ (s e : State) (t : Nat) (sl : Fin 4) (a : Announce) (rest : List Announce), s.acts t → s.piped → e = s.enter t →
    (e.sliceRuns sl = true → (e.finish sl).fifo = a :: rest → (e.finish sl).waiting = [] →
      a.first = tget (e.finish sl).expected a.dom 0 → a.copies = none → Does (.announcementArrive t sl) s fun s' =>
        tget (s'.finish sl).expected a.dom 0 = a.last + 1 ∧ (s'.finish sl).fifo = rest ∧ (s'.finish sl).waiting = [] ∧
        s'.body = { e.body with buf := { e.buf with finish := s'.buf.finish } }) ∧
    (∀ cs, e.sliceRuns sl = true → (e.finish sl).fifo = a :: rest → (e.finish sl).waiting = [] →
      a.first = tget (e.finish sl).expected a.dom 0 → a.copies = some cs →
      (∀ c ∈ cs, ∃ k, e.copy c = some k ∧ k.void = false ∧ e.portUp k.port = true ∧ (e.frame k.frame).isSome = true) →
      Does (.announcementArrive t sl) s fun s' =>
        tget (s'.finish sl).expected a.dom 0 = a.last + 1 ∧ (s'.finish sl).fifo = rest ∧ (s'.finish sl).waiting = [] ∧
        (∀ c ∈ cs, ∃ k, s'.copy c = some k ∧ k.queued = true ∧ c ∈ (s'.queue k.queue).fifo) ∧ s'.outer = e.outer) ∧
    (∀ (p : Fin 34) (c : Fin 8), e.sliceRuns sl = true → (e.finish sl).waiting = [a] → a.dom = p * 8 + c → a.copies = none →
      a.at_ + a.gap ≤ e.now → Does (.gapTimeout t sl p c) s fun s' =>
        tget (s'.finish sl).expected a.dom 0 = a.last + 1 ∧ (s'.finish sl).waiting = [] ∧
        (s'.finish sl).fifo = (e.finish sl).fifo ∧ s'.told (0x4C + sl) 1 ∧
        s'.body = { e.body with buf := { e.buf with finish := s'.buf.finish } })

/-- COPY_BECOMES_HEAD, TX_START and COPY_TX_END: a void marker is passed, a head within its limits that is wanted
stands checked, the chosen copy leaves its queue for the line of its port, one that P32 may deliver leaves it for its ring at
the port's pace, and at its last byte the copy ends with the frame on the wire (01 R12; 07 R186, R187; 08 R209, R210, R220; 10
R279). The model's readings in it: log entries 43, 44, 50, 83. -/
def Obligations.CopiesAreCheckedSentAndEnd : Prop :=
  ∀ (s e : State) (t : Nat) (p : Fin 34) (c : Fin 8) (id : Nat) (k : Copy) (v : Frame), s.acts t → e = s.enter t →
    (s.piped → e.newHead p c = some (id, k) → k.void = true → Does (.copyBecomesHead t p c) s fun s' =>
      s'.copy id = none ∧ id ∉ (s'.queue k.queue).fifo ∧ s'.outer = e.outer) ∧
    (s.piped → e.newHead p c = some (id, k) → k.void = false → e.frame k.frame = some v → k.ready v = true →
      k.port ≠ 32 → e.oversize k.port k.cls k.len = none → e.proxied v k.port = false →
      ((e.atHead id k v).2.wanted k.frame v (e.atHead id k v).1).1 = true → Does (.copyBecomesHead t p c) s fun s' =>
        s'.copy id = some { k with checked := true, headAt := some (e.after v) } ∧ s'.outer = e.outer) ∧
    (∀ h x y, s.piped → e.newHead p c = some (id, k) → k.void = false → e.frame k.frame = some v → k.ready v = true →
      k.port = 32 → tfind e.host.rxWait k.cls = none → e.atHead id { k with ring := e.rxRing k.cls } v = (h, x) →
      x.wanted k.frame v h = (true, y) → (y.hostHead id h ((y.frame k.frame).getD v)).1 = true →
      Does (.copyBecomesHead t p c) s fun s' => s'.copy id = some h ∧ h.checked = true ∧ s'.outer = e.outer) ∧
    (∀ x, s.piped → p.val = 32 → (e.egr p).flushing = false → e.host.deliverFrom ≤ e.now →
      [7, 6, 5, 4, 3, 2, 1, 0].findSome? e.hostReady = some (id, k, v, x) → (x.hostHead id k v).1 = true →
      Does (.txStart t p .good) s fun s' => s'.copy id = none ∧ id ∉ (s'.queue k.queue).fifo ∧
        s'.host.deliverFrom = e.now + hostPace k.len ∧ s'.outer = e.outer) ∧
    (∀ q x, s.piped → p.val ≠ 32 → (e.egr p).flushing = false → e.portUp p = true → e.sliceRuns (portSlice p) = true →
      (e.egr p).tx = none →
      (e.egr p).freeAt ≤ e.now → (e.egr p).suspended = none → e.choose p (e.classes p false) = (some (q, id, k), x) →
      (e.choose p ((e.classes p true).filter fun c => decide (k.cls < c))).1 = none → x.frame k.frame = some v →
      Does (.txStart t p .good) s fun s' =>
        (∃ y, (s'.egr p).tx = some y ∧ y.copy = id ∧ y.startAt = e.now) ∧ id ∉ (s'.queue k.queue).fifo ∧
        s'.outer = e.outer) ∧
    (∀ x, p.val ≠ 33 → (e.egr p).tx = some x → e.copy x.copy = some k → e.frame k.frame = some v → v.endAt.isSome = true →
      x.startAt + (8 + (k.len - x.sent)) * x.bytePs ≤ e.now → Does (.copyTxEnd t p .good) s fun s' =>
        s'.copy x.copy = none ∧ (s'.egr p).tx = none ∧
        s'.gave (.frame p (e.bodyOf v k) (stompOf v k false).isSome) ∧ s'.outer = e.outer)

/-- SHAPER_TICK, GATE_ENTRY_CHANGE, GATE_SWAP, PREEMPT_HOLD_START, PREEMPTION_VERIFY_DONE and PORT_FLUSH_DONE: slopes
apply at the tick, a gate entry sets the gates, a due set becomes operational, a hold stops its class and suspends its fragment, verification
ends in its status, and a port that went down has its queues emptied (08 R211 to R216, R223 to R225). The model's
readings in it: log entries 45, 47. -/
def Obligations.GatesShapersAndPreemptionMove : Prop :=
  ∀ (s e : State) (t : Nat) (p : Fin 32) (c : Fin 8), s.acts t → e = s.enter t →
    (Does (.shaperTick t p) s fun s' =>
      (∀ i, i < 8 → (s'.shaper p i).slope = s'.num (0x6100 + p) (i + 1) ∧
        tfind s'.dict.staged (entryKey (0x6100 + p) (i + 1)) = none ∧
        (∀ bs, tfind e.dict.staged (entryKey (0x6100 + p) (i + 1)) = some bs →
          tfind s'.dict.vals (entryKey (0x6100 + p) (i + 1)) = some bs) ∧
        ((s'.shaper p i).slope ≠ 0 → (e.shaper p i).slope ≠ 0 → 0 ≤ (e.shaper p i).credit →
          (s'.shaper p i).credit = (e.shaper p i).credit ∧ (s'.shaper p i).eligible = true)) ∧
      s'.body = { e.body with
        dict := { e.dict with vals := s'.dict.vals, staged := s'.dict.staged }, egress := s'.egress }) ∧
    (Does (.gateEntryChange t p) s fun s' =>
      s'.body = (e.setEgr p { e.egr p with
        gates := e.gatesNow p, holds := (e.egr p).holds &&& ~~~(e.gatesNow p) }).body) ∧
    (∀ g at_, (e.egr p).waiting = some (g, at_) → at_ * 1000 ≤ e.domainPs g.domain → Does (.gateSwap t p) s fun s' =>
      (s'.egr p).oper = { g with base := at_ } ∧ (s'.egr p).waiting = none ∧ s'.told 0x1A3 1 ∧
      s'.outer = { e.outer with pow := { e.outer.pow with
        uncovered := if e.planCovers p (g, at_) then e.pow.uncovered else e.pow.uncovered ++ [(p.val, g, at_)] } }) ∧
    (e.holdDue p c = true → (e.egr p).tx = none → Does (.preemptHoldStart t p c) s fun s' =>
      s'.body = (e.setEgr p { e.egr p with holds := (e.egr p).holds ||| BitVec.ofNat 8 (2 ^ c.val) }).body) ∧
    (∀ x k n, e.holdDue p c = true → (e.egr p).tx = some x → x.preemptable = true → e.copy x.copy = some k →
      k.cls = c.val → n = max (e.minFragment p - 4) (e.txSent x) → e.splits p x k.len n = true →
      Does (.preemptHoldStart t p c) s fun s' =>
        s'.body = (e.setEgr p { e.egr p with
          holds := (e.egr p).holds ||| BitVec.ofNat 8 (2 ^ c.val), tx := none
          suspended := some { x with sent := x.sent + n }, freeAt := x.startAt + (8 + n + 16) * x.bytePs
          fragment := some (c.val, x.startAt + (8 + n + 4) * x.bytePs) }).body) ∧
    (∀ ok, (e.egr p).preemption = .verifying → Does (.preemptionVerifyDone t p ok) s fun s' =>
      s'.told (0x20 + p) (if ok then 1 else 2) ∧
      s'.body = (e.setEgr p { e.egr p with preemption := if ok then .active else .failed }).body) ∧
    (∀ q : Fin 34, (e.egr q).flushing = true → Does (.portFlushDone t q) s fun s' =>
      (s'.egr q).flushing = false ∧ s'.told 0x1A5 1 ∧ s'.outer = e.outer ∧
      ∀ id k, e.copy id = some k → k.port = q.val → k.queued = true → e.onWire id k = false → s'.copy id = none)

/-! ### Rules and their versions (03), samplers (16), and the memories that hold them -/

/-- RULE_INVALIDATE, RULE_WRITE_VALIDATE, RULE_REFRESH and RULE_OP_COMPLETE: a direct operation is dropped with OVERRUN
while one is in progress, refused with CONFLICT on a row that is not free and not of the CURRENT version alone, and
otherwise wakes the slices that rest, acts on its row and is BUSY until it completes with DONE (03 R79, R80; 02 R56). The host
gives one over its link alone. The model's readings in it: log entry
53. -/
def Obligations.DirectRowOperationsActOrFail : Prop :=
  ∀ (s e : State) (t : Nat) (m : Master) (row : Fin 32768), s.acts t → e = s.enter t →
    (e.hears m = false → ∀ c ∈ [Instr.ruleInvalidate t m row, .ruleWriteValidate t m row, .ruleRefresh t m row],
      Does c s fun s' => s'.body = e.body) ∧
    (e.hears m = true → e.rules.busy = true →
      ∀ c ∈ [Instr.ruleInvalidate t m row, .ruleWriteValidate t m row, .ruleRefresh t m row],
      Does c s fun s' => s'.body = e.body ∧ s'.told 0x189 4) ∧
    (e.hears m = true → e.rules.busy = false → e.rowOpen row = false →
      ∀ c ∈ [Instr.ruleInvalidate t m row, .ruleWriteValidate t m row, .ruleRefresh t m row],
      Does c s fun s' => s'.body = e.body ∧ s'.told 0x189 2) ∧
    (e.hears m = true → e.rules.busy = false → e.rowOpen row = true → Does (.ruleInvalidate t m row) s fun s' =>
      s'.body = { e.body with
        dict := { e.dict with wakes := s'.dict.wakes }, pow := { e.pow with slices := e.wokenSlices fun _ => true }
        rules := { e.rules with busy := true, row := BitVec.ofNat 15 row }.setRow row {} }) ∧
    (e.hears m = true → e.rules.busy = false → e.rowOpen row = true → Does (.ruleWriteValidate t m row) s fun s' =>
      s'.body = { e.body with
        dict := { e.dict with wakes := s'.dict.wakes }, pow := { e.pow with slices := e.wokenSlices fun _ => true }
        rules := { e.rules with busy := true, row := BitVec.ofNat 15 row }.setRow row {
          key := BitVec.ofNat 512 e.rules.buf.toNat, mask := BitVec.ofNat 512 (e.rules.buf.toNat / 2 ^ 512)
          action := BitVec.ofNat 128 (e.rules.buf.toNat / 2 ^ 1024), valid := true
          slots := if (e.rules.row_ row).slots = 0 then BitVec.ofNat 4 (2 ^ e.currentSlot.val)
            else (e.rules.row_ row).slots } }) ∧
    (e.hears m = true → e.rules.busy = false → e.rowOpen row = true → Does (.ruleRefresh t m row) s fun s' =>
      s'.body = { e.body with
        dict := { e.dict with wakes := s'.dict.wakes }, pow := { e.pow with slices := e.wokenSlices fun _ => true }
        rules := { e.rules with busy := true, row := BitVec.ofNat 15 row }.setRow row
          { e.rules.row_ row with masked := false } }) ∧
    (e.rules.busy = true → (∀ i, i < 4 → (e.slice i).state ≠ .nap ∧ (e.slice i).state ≠ .doze) →
      Does (.ruleOpComplete t) s fun s' =>
        s'.body = { e.body with rules := { e.rules with busy := false } } ∧ s'.told 0x189 1)

/-- BUNDLE_PREPARED, DEFERRED_ADD_WRITE, TCAM_SCRUB, FREE_LIST_REBUILD and SAMPLER_TOKEN_REFILL: a bundle's records are
staged or deferred, a deferred row is written once it is free, a row that fails its parity is reported and masked where
software chose so, a free tile's link word that cannot be read begins a rebuild, which ends with the free list made anew from
the bitmaps, and a sampler's bucket takes a token (03 R76; 01 Table
1.7; 07 R178; 16 R416). The model's readings in it: log entries 53, 75, 82, 98. -/
def Obligations.BundlesArePreparedAndTablesScrubbed : Prop :=
  ∀ (s e : State) (t : Nat), s.acts t → e = s.enter t →
    (e.rules.prep = .preparing → e.rules.waiting = none → e.dom.requests = [] → Does (.bundlePrepared t) s fun s' =>
      s'.body = (e.prepared (e.stagedBundle.getD [])).body) ∧
    (∀ (row : Fin 32768) b, e.rules.deferred.find? (fun b => b.row == row.val) = some b → (e.rules.row_ row).slots = 0 →
      (e.rules.row_ row).stagedAdd = false → Does (.deferredAddWrite t row) s fun s' =>
        s'.body = { e.body with rules := { e.rules.setRow row {
            key := b.key, mask := b.mask, action := b.action, valid := true, stagedAdd := true } with
          deferred := e.rules.deferred.erase b
          prep := if (e.rules.deferred.erase b).isEmpty then .prepared else e.rules.prep } }) ∧
    (∀ (sl : Fin 4) (row : Fin 32768), s.piped →
      (Does (.tcamScrub t sl row false) s fun s' => s'.body = e.body) ∧
      (∀ r, tfind e.rules.rows row = some r → Does (.tcamScrub t sl row true) s fun s' =>
        s'.told 0x188 (2 ^ sl.val) ∧ s'.told 0x1BF 6 ∧
        s'.body = { e.body with
          draw := e.draw + 1
          rules := if e.num 0x2304 0 = 1 then
            { e.rules with rows := tput e.rules.rows row { r with masked := true } } else e.rules })) ∧
    (∀ x : FreeLink, e.buf.rebuilding = false → linkReadable x = false →
      (e.buf.free.any fun r => decide (r.1 ≤ x.tile.val) && decide (x.tile.val < r.1 + r.2)) = true →
      Does (.freeListRebuild t x) s fun s' =>
        s'.told 0x1BC 2 ∧ s'.body = { e.body with buf := { e.buf with rebuilding := true, rebuildTile := x.tile } }) ∧
    (∀ x : FreeLink, e.buf.rebuilding = true → Does (.freeListRebuild t x) s fun s' =>
      s'.told 0x1A0 1 ∧ s'.buf.rebuilding = false ∧
      s'.body = ({ e with buf := { e.buf with
        rebuilding := false
        free := (below 4096 fun i => tget e.buf.tiles i 0 == 0 && !e.buf.inHand i).foldl Runs.push [] } }.fillHands).body) ∧
    (∀ (k : Fin 8) all, all = (e.sampler k).tokens * 10 ^ 12 + (e.sampler k).part
        + e.num (0xE100 + k) 8 * (e.now - (e.sampler k).refillAt) → Does (.samplerTokenRefill t k) s fun s' =>
      s'.body = (e.setSampler k { e.sampler k with
        tokens := min (e.num (0xE100 + k) 9) (all / 10 ^ 12), refillAt := e.now
        part := if e.num (0xE100 + k) 9 * 10 ^ 12 ≤ all then 0 else all % 10 ^ 12 }).body)

/-! ### The forwarding database (04) -/

/-- LEARN_COMMIT, AGE_TICK, FDB_WALK_VISIT and FDB_AGE_OUT: a request whose key has no entry is learned where R87 places it, one
whose key has moved moves its entry, the age counter advances an age tick after its latest advance, and an entry that is still expired is removed (04 R87, R93, R96,
R97). The model's readings in it: log entry 94. -/
def Obligations.LearningAndAgingChangeOneEntry : Prop :=
  ∀ (s e : State) (t : Nat), s.acts t → e = s.enter t →
    (∀ r rest, s.piped → e.learningRuns = true → e.fdb.ageOuts = [] → e.fdb.queue = r :: rest → e.fdb.suppressed r = false →
      (∀ i, e.fdb.find r.vid r.mac = none → e.fdbPlace r.vid r.mac = some i → Does (.learnCommit t) s fun s' =>
        s'.fdb.at_ i = e.learned (FdbE.set (FdbE.keyOnly r.vid r.mac) 60 1 1) r.port ∧
        (∀ j, j ≠ i → s'.fdb.at_ j = e.fdb.at_ j) ∧ s'.fdb.queue = rest ∧
        s'.body = { e.body with fdb := s'.fdb, host := s'.body.host, pair := s'.body.pair }) ∧
      (∀ i x, e.fdb.find r.vid r.mac = some (i, x) → FdbE.multi x = false → FdbE.port x ≠ r.port → FdbE.pin x = false →
        e.learnMode r.port ≠ 2 → e.learnMode (FdbE.port x) ≠ 2 →
        (FdbE.hold x = true → e.holdWindow < e.elapsed x) → Does (.learnCommit t) s fun s' =>
          s'.fdb.at_ i = e.learned x r.port ∧ s'.told 0x18A 1 ∧
          (∀ j, j ≠ i → s'.fdb.at_ j = e.fdb.at_ j) ∧ s'.fdb.queue = rest ∧
          s'.body = { e.body with fdb := s'.fdb, host := s'.body.host, pair := s'.body.pair })) ∧
    (e.fdb.tickAt + e.num 0x2400 3 * 1000 ≤ e.now → Does (.ageTick t) s fun s' =>
      s'.body = { e.body with fdb := { e.fdb with
        tick := e.fdb.tick + 1, tickAt := e.fdb.tickAt + e.num 0x2400 3 * 1000 } }) ∧
    (e.now < e.fdb.tickAt + e.num 0x2400 3 * 1000 → Does (.ageTick t) s fun s' => s'.body = e.body) ∧
    (∀ i x, s.piped → e.walkRuns = true → e.fdb.walk = i → e.fdb.at_ i = x →
      (Does (.fdbWalkVisit t .good) s fun s' =>
        s'.fdb.walk = (i + 1) % 1050624 ∧ (∀ j, j ≠ i → s'.fdb.at_ j = e.fdb.at_ j) ∧
        s'.fdb.at_ i = (if FdbE.valid x = true ∧ FdbE.hold x = true ∧ e.holdWindow < e.elapsed x
          then FdbE.set x 127 1 0 else x) ∧
        s'.fdb.ageOuts = (if FdbE.valid x = true ∧ e.fdbExpired x = true then e.fdb.ageOuts ++ [i] else e.fdb.ageOuts) ∧
        s'.body = { e.body with fdb := s'.fdb, pair := s'.body.pair }) ∧
      (∀ ecc, ecc ≠ .good → ecc ≠ .corrected → Does (.fdbWalkVisit t ecc) s fun s' =>
        s'.fdb.walk = (i + 1) % 1050624 ∧ s'.fdb.at_ i = 0 ∧ s'.fdb.excl i = true ∧ s'.told 0x1BD 6 ∧
        (∀ j, j ≠ i → s'.fdb.at_ j = e.fdb.at_ j ∧ s'.fdb.excl j = e.fdb.excl j) ∧
        s'.body = { e.body with fdb := s'.fdb, host := s'.body.host, pair := s'.body.pair })) ∧
    (∀ i rest, e.walkRuns = true → e.fdb.ageOuts = i :: rest →
      (FdbE.valid (e.fdb.at_ i) = true → e.fdbExpired (e.fdb.at_ i) = true → Does (.fdbAgeOut t) s fun s' =>
        s'.fdb.at_ i = 0 ∧ (∀ j, j ≠ i → s'.fdb.at_ j = e.fdb.at_ j) ∧ s'.fdb.ageOuts = rest ∧
        s'.body = { e.body with fdb := s'.fdb, host := s'.body.host, pair := s'.body.pair }) ∧
      (FdbE.valid (e.fdb.at_ i) = false ∨ e.fdbExpired (e.fdb.at_ i) = false → Does (.fdbAgeOut t) s fun s' =>
        s'.body = { e.body with fdb := { e.fdb with ageOuts := rest } }))

/-- The host gives an FDB command over its link alone. While one is in progress every other is dropped with OVERRUN; otherwise a search shows the entry of a key, NEXT
fills its buffer, and an OP that names no command completes with code 0x03 (04 R99, R100, R103).
FDB_INSERT, FDB_DELETE and FDB_DELETE_INDEX: an insert replaces the entry of its key, or is placed, or fails with code 0x02; a
delete empties the entry of its key or at the cursor, or fails with code 0x01 (04 R87, R99). The model's readings in it: log
entries 84 (INDEX keeps its value where nothing is found), 27 (a full table raises its event and makes no log record). -/
def Obligations.FdbCommandsShowAndChangeOneEntry : Prop :=
  (∀ (s e : State) (t : Nat) (m : Master) (byVid byPort withPin : Bool) (port : BitVec 6) (vid : BitVec 12) (op : BitVec 4),
      s.acts t → e = s.enter t →
      (e.hears m = false → ∀ c ∈ [Instr.fdbSearch t m, .fdbNext t m byVid byPort port vid, .fdbInsert t m, .fdbDelete t m,
          .fdbDeleteIndex t m, .flushPort t m withPin byVid port vid, .fdbBadOp t m op],
        Does c s fun s' => s'.body = e.body) ∧
      (e.hears m = true → e.fdb.busy = true → ∀ c ∈ [Instr.fdbSearch t m, .fdbNext t m byVid byPort port vid, .fdbInsert t m, .fdbDelete t m,
          .fdbDeleteIndex t m, .flushPort t m withPin byVid port vid, .fdbBadOp t m op],
        Does c s fun s' => s'.body = e.body ∧ s'.told 0x191 4) ∧
      (∀ i x, e.hears m = true → e.fdb.busy = false → vidBad e.fdb.keyVid = false → e.fdb.find e.fdb.keyVid e.fdb.keyMac = some (i, x) →
        Does (.fdbSearch t m) s fun s' => s'.told 0x191 1 ∧
          s'.body = { e.body with fdb := { e.fdb with entry := x, index := BitVec.ofNat 21 i, count := 0, code := 0 } }) ∧
      (e.hears m = true → e.fdb.busy = false → vidBad e.fdb.keyVid = false → e.fdb.find e.fdb.keyVid e.fdb.keyMac = none →
        Does (.fdbSearch t m) s fun s' => s'.told 0x191 3 ∧
          s'.body = { e.body with fdb := { e.fdb with count := 0, code := 1 } }) ∧
      (e.hears m = true → e.fdb.busy = false → vidBad e.fdb.keyVid = true → ∀ c ∈ [Instr.fdbSearch t m, .fdbDelete t m, .fdbBadOp t m op],
        Does c s fun s' => s'.told 0x191 3 ∧ s'.body = { e.body with fdb := { e.fdb with count := 0, code := 3 } }) ∧
      (e.hears m = true → e.fdb.busy = false → Does (.fdbBadOp t m op) s fun s' => s'.told 0x191 3 ∧
        s'.body = { e.body with fdb := { e.fdb with count := 0, code := 3 } }) ∧
      (∀ l next, e.hears m = true → e.fdb.busy = false → e.fdb.cursor.toNat ≤ 1050624 → (byPort = true → port.toNat ≤ 33) →
        (byVid = true → vidBad vid.toNat = false) →
        fdbScan (fun x => (!byVid || FdbE.vid x == vid.toNat) && (!byPort || (!FdbE.multi x && FdbE.port x == port.toNat)))
          (min 1050624 (e.fdb.cursor.toNat + 4096))
          (e.fdb.entries.filter fun x => decide (e.fdb.cursor.toNat ≤ x.1)) 32 = (l, next) →
        Does (.fdbNext t m byVid byPort port vid) s fun s' => s'.told 0x191 1 ∧
          s'.body = { e.body with fdb := { e.fdb with
            nextBuf := (l.map fun x => leBytes 16 x.2.toNat ++ leBytes 4 x.1 ++ List.replicate 12 0).flatten
            cursor := BitVec.ofNat 21 next, count := BitVec.ofNat 6 l.length, code := 0 } })) ∧
  (∀ (s e : State) (t : Nat) (m : Master), s.acts t → e = s.enter t → e.hears m = true → e.fdb.busy = false →
      (vidBad (FdbE.vid e.fdb.entry) = false → (FdbE.multi e.fdb.entry = false → FdbE.dest e.fdb.entry ≤ 33) →
        (∀ i old, e.fdb.find (FdbE.vid e.fdb.entry) (FdbE.mac e.fdb.entry) = some (i, old) → Does (.fdbInsert t m) s fun s' =>
          s'.fdb.at_ i = e.inserted (FdbE.stamp old) ∧ (∀ j, j ≠ i → s'.fdb.at_ j = e.fdb.at_ j) ∧
          s'.fdb.index = BitVec.ofNat 21 i ∧ s'.fdb.code = 0 ∧ s'.fdb.busy = false ∧ s'.told 0x191 1 ∧
          s'.body = { e.body with fdb := s'.fdb, host := s'.body.host, pair := s'.body.pair }) ∧
        (∀ i, e.fdb.find (FdbE.vid e.fdb.entry) (FdbE.mac e.fdb.entry) = none →
          e.fdbPlace (FdbE.vid e.fdb.entry) (FdbE.mac e.fdb.entry) = some i → Does (.fdbInsert t m) s fun s' =>
            s'.fdb.at_ i = e.inserted 0 ∧ (∀ j, j ≠ i → s'.fdb.at_ j = e.fdb.at_ j) ∧
            s'.fdb.index = BitVec.ofNat 21 i ∧ s'.fdb.code = 0 ∧ s'.fdb.busy = false ∧ s'.told 0x191 1 ∧
            s'.body = { e.body with fdb := s'.fdb, host := s'.body.host, pair := s'.body.pair }) ∧
        (e.fdb.find (FdbE.vid e.fdb.entry) (FdbE.mac e.fdb.entry) = none →
          e.fdbPlace (FdbE.vid e.fdb.entry) (FdbE.mac e.fdb.entry) = none → Does (.fdbInsert t m) s fun s' =>
            s'.told 0x191 3 ∧ s'.told 0x18D 1 ∧
            s'.body = { e.body with
              fdb := { e.fdb with count := 0, code := 2, logSeq := s'.fdb.logSeq }, host := s'.body.host })) ∧
      (vidBad e.fdb.keyVid = false →
        (∀ i x, e.fdb.find e.fdb.keyVid e.fdb.keyMac = some (i, x) → Does (.fdbDelete t m) s fun s' =>
          s'.fdb.at_ i = 0 ∧ (∀ j, j ≠ i → s'.fdb.at_ j = e.fdb.at_ j) ∧ s'.fdb.index = BitVec.ofNat 21 i ∧
          s'.fdb.code = 0 ∧ s'.fdb.busy = false ∧ s'.told 0x191 1 ∧
          s'.body = { e.body with fdb := s'.fdb, host := s'.body.host, pair := s'.body.pair }) ∧
        (e.fdb.find e.fdb.keyVid e.fdb.keyMac = none → Does (.fdbDelete t m) s fun s' =>
          s'.told 0x191 3 ∧ s'.body = { e.body with fdb := { e.fdb with count := 0, code := 1 } })) ∧
      (∀ i, e.fdb.cursor.toNat = i → i ≤ 1050624 →
        (e.fdb.excl i = true → Does (.fdbDeleteIndex t m) s fun s' => s'.told 0x191 1 ∧
          s'.body = { e.body with fdb := { e.fdb with
            excluded := tset false e.fdb.excluded i false, count := 0, code := 0 }, pair := s'.body.pair }) ∧
        (e.fdb.excl i = false → FdbE.valid (e.fdb.at_ i) = true → Does (.fdbDeleteIndex t m) s fun s' =>
          s'.fdb.at_ i = 0 ∧ (∀ j, j ≠ i → s'.fdb.at_ j = e.fdb.at_ j) ∧
          s'.fdb.code = 0 ∧ s'.fdb.busy = false ∧ s'.told 0x191 1 ∧
          s'.body = { e.body with fdb := s'.fdb, host := s'.body.host, pair := s'.body.pair }) ∧
        (e.fdb.excl i = false → FdbE.valid (e.fdb.at_ i) = false → Does (.fdbDeleteIndex t m) s fun s' =>
          s'.told 0x191 3 ∧ s'.body = { e.body with fdb := { e.fdb with count := 0, code := 1 } })))

/-- FLUSH_PORT, FDB_FLUSH_COMPLETE, SHADOW_FETCH and SHADOW_CONFIRM_FETCH: an accepted flush waits its turn and removes every
entry it takes and no other; a fetch of the shadow records every entry that differs and none that does not; a difference is confirmed by a second fetch, or cleared (04 R101, R102, R105, R106). -/
def Obligations.FlushesAndShadowsRunToTheEnd : Prop :=
  ∀ (s e : State) (t : Nat), s.acts t → e = s.enter t →
    (∀ m withPin byVid (port : BitVec 6) (vid : BitVec 12), e.hears m = true → e.fdb.busy = false → port.toNat ≤ 33 →
      (byVid = true → vidBad vid.toNat = false) → Does (.flushPort t m withPin byVid port vid) s fun s' =>
        s'.body = { e.body with fdb := { e.fdb with
          busy := true, count := 0
          flushes := e.fdb.flushes ++
            [{ port := port.toNat, vid := if byVid then some vid.toNat else none, withPin, command := true }] } }) ∧
    (∀ f rest, e.fdb.flushes = f :: rest → Does (.fdbFlushComplete t) s fun s' =>
      (∀ i x, (i, x) ∈ e.fdb.entries → f.takes x = true → s'.fdb.at_ i = 0) ∧
      (∀ i, (∀ x, (i, x) ∈ e.fdb.entries → f.takes x = false) → s'.fdb.at_ i = e.fdb.at_ i) ∧
      s'.fdb.flushes = rest ∧ s'.told 0x18F (if f.command then 1 else 2) ∧
      (f.command = true → s'.fdb.busy = false ∧ s'.fdb.code = 0 ∧ s'.told 0x191 1) ∧
      s'.body = { e.body with fdb := s'.fdb, host := s'.body.host, pair := s'.body.pair }) ∧
    (∀ data, e.num 0x2440 1 ≠ 0 →
      (Does (.shadowFetch t true data) s fun s' =>
        (∃ new, s'.fdb.diffs = e.fdb.diffs ++ new ∧ new.Nodup ∧ ∀ d, d ∈ new ↔
          (d.index < 1050624 ∧ d.index / 256 = e.fdb.chunk ∧ d.at_ = e.now ∧ d.changed = false ∧
            e.fdb.excl d.index = false ∧ (∀ w ∈ e.fdb.diffs, w.index ≠ d.index) ∧
            shadowDiffers (e.num 0x2440 1) (e.fdb.at_ d.index)
              (BitVec.ofNat 128 (leAt data (16 * (d.index % 256)) 16)) = true)) ∧
        s'.body = { e.body with fdb := { e.fdb with
          chunk := (e.fdb.chunk + 1) % 4104, diffs := s'.fdb.diffs
          passes := if e.fdb.chunk + 1 = 4104 then e.fdb.passes + 1 else e.fdb.passes } }) ∧
      (Does (.shadowFetch t false data) s fun s' => s'.told 0x192 2 ∧
        s'.body = { e.body with fdb := { e.fdb with
          chunk := (e.fdb.chunk + 1) % 4104
          passes := if e.fdb.chunk + 1 = 4104 then e.fdb.passes + 1 else e.fdb.passes } })) ∧
    (∀ i x d, e.fdb.diffs.find? (fun d => d.index == i && decide (d.at_ + e.num 0x2440 4 * 1000 ≤ e.now)) = some d →
      (Does (.shadowConfirmFetch t false i x) s fun s' => s'.told 0x192 2 ∧ s'.body = e.body) ∧
      (shadowDiffers (e.num 0x2440 1) (e.fdb.at_ i) x = false ∨ d.changed = true →
        Does (.shadowConfirmFetch t true i x) s fun s' =>
          s'.body = { e.body with fdb := { e.fdb with diffs := e.fdb.diffs.filter fun y => y.index != i } }) ∧
      (shadowDiffers (e.num 0x2440 1) (e.fdb.at_ i) x = true → d.changed = false →
        Does (.shadowConfirmFetch t true i x) s fun s' => s'.told 0x192 1 ∧
          s'.body = { e.body with
            host := s'.body.host
            fdb := { e.fdb with
              diffs := e.fdb.diffs.filter fun y => y.index != i, shadowIdx := BitVec.ofNat 21 i
              logSeq := s'.fdb.logSeq } }))

/-! ### Time, the wake plan and the sequence engine (08, 09) -/

/-- CLOCK_STEP, TIME_CAPTURE, GRANDMASTER_CHANGE, HOLD_SPAN_START, HOLD_SPAN_END, WAKE_PLAN_WRITE and PLAN_EXPIRED: a
step sets its domain clock with its event, a capture takes both clocks at one instant, a span holds its slice and wakes
it, and a plan that has run out is reported with the slices it names (08 R218, R227 to R232). RECOVERY_RESET_TIMEOUT
and NODE_TABLE_SWEEP_VISIT: a recovery function takes any number again RESET after its last update, and the sweep
removes an entry that has aged out and resets the histories of one that has not (09 R246, R247, R256). The model's
readings in it: log entry 46. -/
def Obligations.ClocksPlansAndHistoriesMove : Prop :=
  (∀ (s e : State) (t : Nat), s.acts t → e = s.enter t →
      (∀ (d : Fin 2) seconds nanos, e.groupActs 1 = true → nanos < 1000000000 → seconds < 2 ^ 48 →
        Does (.clockStep t d seconds nanos) s fun s' => s'.told (0x64 + d) 4 ∧
          s'.outer = (({ e with pow.uncovered := s'.pow.uncovered } : State).setClock d { e.clock d with
            value := (seconds * 1000000000 + nanos) * 2 ^ 32, at_ := e.now, steps := (e.clock d).steps + 1 }).outer) ∧
      (∀ m, e.hears m = true → Does (.timeCapture t m) s fun s' =>
        s'.body = { e.body with captured0 := e.domainNs 0, captured1 := e.domainNs 1 }) ∧
      (∀ (d : Fin 2) gm, e.groupActs 1 = true → Does (.grandmasterChange t d gm) s fun s' =>
        s'.body = (e.setClock d { (e.clock d).adjusted e.now gm with
          synced := gm.synchronised, grandmaster := Machine.slice gm.identity 0 8, offset := gm.offset }).body ∧
        (gmFlags (e.clock d) gm ≠ 0 → s'.told (0x64 + d) (gmFlags (e.clock d) gm))) ∧
      (∀ sl : Fin 4, e.inSpan sl = true → (e.slice sl).held = false → Does (.holdSpanStart t sl) s fun s' =>
        s'.body = { e.body with pow := { e.pow with
          slices := ((e.wokenSlices fun i => decide (i = sl.val ∧ e.pow.state ≠ .hold)).map fun x =>
            if x.1 = sl.val then (x.1, { x.2 with held := true }) else x) } }) ∧
      (∀ sl : Fin 4, e.inSpan sl = false → Does (.holdSpanEnd t sl) s fun s' =>
        s'.body = { e.body with pow := { e.pow with
          slices := e.slicesBut.map fun x => if x.1 = sl.val then (x.1, { x.2 with held := false }) else x } }) ∧
      (∀ spans planEnd, e.groupActs 1 = true →
        (e.planFits spans planEnd = true → Does (.wakePlanWrite t spans planEnd) s fun s' =>
          s'.body = { e.body with pow := { e.body.pow with
            spans := spans, planEnd := planEnd, planLate := false, uncovered := []
            planned := (e.egress.map fun x => x.2.pendingSets.map fun g => (x.1, g)).flatten } }) ∧
        (e.planFits spans planEnd = false → Does (.wakePlanWrite t spans planEnd) s fun s' => s'.body = e.body)) ∧
      (e.pow.planEnd ≠ 0 → e.pow.planEnd < e.now → e.pow.planLate = false → Does (.planExpired t) s fun s' =>
        s'.told 0x1A6 (((List.range 4).filter fun i => e.named i).map fun i => 2 ^ i).sum ∧
        s'.body = { e.body with pow := { e.pow with
          planLate := true
          slices := e.wokenSlices fun i => e.named i && decide (e.num 0x6400 2 = 0 ∧ e.pow.state ≠ .hold) } })) ∧
  (∀ (s e : State) (t : Nat), s.acts t → e = s.enter t →
      (∀ (h : Fin 32768) a, (e.recoveryOf h).at_ = some a → (e.recoveryOf h).expired = false →
        a + bits (e.blk 0x7000 0 (8 * h) 8) 32 20 * 1000000 ≤ e.now → Does (.recoveryResetTimeout t h) s fun s' =>
          s'.body = (e.setRecovery h {
            takeAny := true, last := (e.recoveryOf h).last, hist := 0, at_ := some a, expired := true }).body ∧
          s'.told 0x1A7 2) ∧
      (∀ (pos : Fin 8192) n, tfind e.red.nodes pos = some n →
        (n.at_ + e.num 0x7001 2 * 1000 ≤ e.now → Does (.nodeTableSweepVisit t pos) s fun s' =>
          s'.body = { e.body with red := { e.red with nodes := tdel e.red.nodes pos } }) ∧
        (e.now < n.at_ + e.num 0x7001 2 * 1000 → Does (.nodeTableSweepVisit t pos) s fun s' =>
          s'.body = (e.setNode pos { n with
            delivery := e.forget n.delivery, fwdA := e.forget n.fwdA, fwdB := e.forget n.fwdB }).body)))


/-! ### The host link, the rings and the registers (10, 18) -/

/-- HOST_LINK_TRAINED, HOST_LINK_RESET, FLR, HOST_LINK_ERROR, PERST_N_RELEASE, CONFIGURATION_WRITE, MSIX_UNMASK and
HDM_DECODER_COMMIT: the link comes up in its protocol, each reset has the effects of its column of Table 10.14 and takes P32
down, an error is recorded with the severity that the host set and signalled, one that retry recovers as correctable, a configuration field takes its value, a vector
that is unmasked over the link sends what waited, and a decoder that is not locked takes its programming and is committed only where that is
the one of Table 10.8; a link that is down, or up already, takes nothing of it (10 R263, R267, R271, R281 to R286). The model's
readings in it: log entries 54, 55, 80. -/
def Obligations.TheHostLinkTrainsAndResets : Prop :=
  ∀ (s e : State) (t : Nat), s.acts t → e = s.enter t →
    (∀ cxl speed width cache mem, e.ao.perstHigh = true → 4 ≤ e.boot.step ∨ e.boot.state ≠ .booting →
      e.host.proto = .down → linkRate cxl speed width = true → Does (.hostLinkTrained t cxl speed width cache mem) s fun s' =>
        s'.told 0x1AB (if speed < 5 ∨ width < 8 then 5 else 1) ∧
        s'.body = { e.body with host := { e.body.host with
          proto := if cxl then .cxl else .pcie
          speed := BitVec.ofNat 4 speed, width := BitVec.ofNat 4 width
          cacheCap := cxl && cache, memCap := cxl && mem } }) ∧
    (∀ cxl speed width cache mem, e.ao.perstHigh = false ∨ (e.boot.step < 4 ∧ e.boot.state = .booting) ∨
      e.host.proto ≠ .down ∨
      linkRate cxl speed width = false → Does (.hostLinkTrained t cxl speed width cache mem) s fun s' => s'.body = e.body) ∧
    (∀ kind, Does (.hostLinkReset t kind) s fun s' =>
      s'.host.proto = .down ∧ s'.host.busMaster = false ∧ s'.host.cacheEn = false ∧ s'.host.memEn = false ∧
      s'.host.decoders = [] ∧ s'.host.component = [] ∧ s'.host.errors = {} ∧ s'.host.bar0 = 0 ∧ s'.host.bar2 = 0 ∧
      s'.host.bar4 = 0 ∧ s'.host.msix = [] ∧ s'.host.functionMask = false ∧ s'.host.aspmL1 = false ∧
      s'.host.resets = e.host.resets + 1 ∧ s'.dict.secure = {} ∧ s'.dict.nonsecure = {} ∧
      s'.rules = { s'.rules with row := 0, buf := 0 } ∧
      s'.fdb = { s'.fdb with cursor := 0, keyLo := 0, keyHi := 0, entry := 0, index := 0, count := 0, code := 0,
                             shadowIdx := 0, nextBuf := [] } ∧
      s'.flow = { s'.flow with cursor := 0, index := 0, count := 0, code := 0, hdmLine := 0, key := 0, mask := 0,
                               headReg := 0, tailReg := 0, nextBuf := [] } ∧
      (e.hostUp = true → (s'.egr 32).tx = none ∧ (s'.egr 32).flushing = true) ∧
      (∀ r, (s'.ring r).state = .stopped ∧ (r ≠ 35 → s'.ring r = {})) ∧ (e.host.proto ≠ .down → s'.told 0x1AB 2) ∧
      s'.outer = { e.outer with
        dict := { e.dict with secure := {}, nonsecure := {}, served := s'.dict.served }
        ao := { e.ao with perstHigh := e.ao.perstHigh && kind != .conventional } }) ∧
    (e.host.proto ≠ .down → Does (.flr t) s fun s' =>
      s'.host.proto = e.host.proto ∧ s'.host.busMaster = false ∧ s'.host.decoders = e.host.decoders ∧
      s'.host.cacheEn = e.host.cacheEn ∧ s'.host.memEn = e.host.memEn ∧ s'.host.errors = e.host.errors ∧
      s'.host.resets = e.host.resets ∧ s'.host.bar0 = 0 ∧ s'.host.bar2 = 0 ∧ s'.host.bar4 = 0 ∧ s'.host.msix = [] ∧
      s'.host.functionMask = false ∧ s'.host.aspmL1 = false ∧ s'.rules = { s'.rules with row := 0, buf := 0 } ∧
      s'.fdb = { s'.fdb with cursor := 0, keyLo := 0, keyHi := 0, entry := 0, index := 0, count := 0, code := 0,
                             shadowIdx := 0, nextBuf := [] } ∧
      s'.flow = { s'.flow with cursor := 0, index := 0, count := 0, code := 0, hdmLine := 0, key := 0, mask := 0,
                               headReg := 0, tailReg := 0, nextBuf := [] } ∧
      (e.hostUp = true → (s'.egr 32).tx = none ∧ (s'.egr 32).flushing = true) ∧
      s'.dict.secure = {} ∧ s'.dict.nonsecure = {} ∧ (∀ r, (s'.ring r).state = .stopped ∧ (r ≠ 35 → s'.ring r = {})) ∧
      s'.outer = { e.outer with dict := { e.dict with secure := {}, nonsecure := {}, served := s'.dict.served } }) ∧
    (e.host.proto ≠ .down → Does (.hostLinkError { at_ := t }) s fun s' =>
      s'.body = { e.body with host := { e.body.host with errors := { e.host.errors with
        aerStatus := e.host.errors.aerStatus ||| 0x400000, rasStatus := e.host.errors.rasStatus ||| 0x100 } } } ∧
      s'.told 0x1AB 8 ∧ s'.gave (.aer (if e.host.errors.aerSeverity.getLsbD 22 then .fatal else .nonFatal))) ∧
    (e.host.proto ≠ .down → Does (.hostLinkError { at_ := t, recovered := true }) s fun s' =>
      s'.body = { e.body with host := { e.body.host with errors := { e.host.errors with
        aerCorrectable := e.host.errors.aerCorrectable ||| 0x40, rasCorrectable := e.host.errors.rasCorrectable ||| 4 } } } ∧
      s'.gave (.aer .correctable)) ∧
    (e.host.proto = .down → ∀ b v, ∀ c ∈ [Instr.flr t, .hostLinkError { at_ := t }, .hostLinkError { at_ := t, recovered := true },
      .configurationWrite t b v, .msixUnmask t none],
      Does c s fun s' => s'.body = e.body) ∧
    (Does (.perstNRelease t) s fun s' => s'.body = { e.body with ao := { e.ao with perstHigh := true } }) ∧
    (∀ v, e.host.proto ≠ .down →
      (Does (.configurationWrite t .cxlCache v) s fun s' =>
        s'.body = { e.body with host := { e.body.host with cacheEn := v && e.host.cacheCap } }) ∧
      (Does (.configurationWrite t .cxlMem v) s fun s' =>
        s'.body = { e.body with host := { e.body.host with memEn := v && e.host.memCap } }) ∧
      (Does (.configurationWrite t .msixMask v) s fun s' =>
        s'.body = { e.body with host := { e.body.host with functionMask := v } }) ∧
      (Does (.configurationWrite t .aspmL1 v) s fun s' =>
        s'.body = { e.body with host := { e.body.host with aspmL1 := v } }) ∧
      (∀ b addr, Does (.configurationWrite t (.bar b addr) v) s fun s' =>
        s'.body = { e.body with host := e.body.host.setBar b addr }) ∧
      (∀ w, Does (.configurationWrite t (.aerSeverity w) v) s fun s' =>
        s'.body = { e.body with host := { e.body.host with errors.aerSeverity := w } }) ∧
      (∀ u c, Does (.configurationWrite t (.aerClear u c) v) s fun s' =>
        s'.body = { e.body with host := { e.body.host with errors := { e.host.errors with
          aerStatus := e.host.errors.aerStatus &&& ~~~u
          aerCorrectable := e.host.errors.aerCorrectable &&& ~~~c } } }) ∧
      (v = true ∨ e.host.busMaster = false → Does (.configurationWrite t .busMaster v) s fun s' =>
        s'.body = { e.body with host := { e.body.host with busMaster := v } }) ∧
      (v = false → Does (.configurationWrite t .busMaster v) s fun s' =>
        s'.host.busMaster = false ∧ s'.outer = e.outer ∧ (e.host.busMaster = true →
          (s'.egr 32).tx = none ∧ (s'.egr 32).flushing = true ∧ ∀ r, r < 16 → (s'.ring r).fetched = []))) ∧
    (e.host.proto ≠ .down → Does (.msixUnmask t none) s fun s' =>
      (∀ v, v < 2048 → tget e.host.msixPending v false = true → (tget e.host.msix v {}).masked = false → s'.gave (.msix v)) ∧
      s'.body = { e.body with host := { e.body.host with functionMask := false } }) ∧
    (∀ v : Fin 2048, e.host.proto ≠ .down → Does (.msixUnmask t (some v)) s fun s' =>
      (e.host.functionMask = false → tget e.host.msixPending v false = true → s'.gave (.msix v)) ∧
      s'.body = { e.body with host := { e.body.host with
        msix := tset {} e.host.msix v { tget e.host.msix v {} with masked := false } } }) ∧
    (∀ (d : Fin 2) base size skip ways lock ok, e.host.proto ≠ .down → (tget e.host.decoders d {}).locked = false →
      ok = (size == (if d.val = 0 then 12 * 2 ^ 30 else 2 ^ 28) && skip == 0 && ways == 1) →
      Does (.hdmDecoderCommit t d base size skip ways lock) s fun s' =>
        s'.body = { e.body with host := { e.body.host with
          decoders := tset {} e.host.decoders d {
            committed := ok, errorNotCommitted := !ok, locked := ok && lock, base, size, skip, ways
            lockOnCommit := lock } } }) ∧
    (∀ (d : Fin 2) base size skip ways lock, e.host.proto = .down ∨ (tget e.host.decoders d {}).locked = true →
      Does (.hdmDecoderCommit t d base size skip ways lock) s fun s' => s'.body = e.body)

/-- RING_CONFIG_WRITE, RING_START, RING_STOP, RING_STOPPED, RING_DOORBELL and RING_COALESCE_TIMEOUT: a ring is written
and started only while STOPPED or ERROR, by the host over its link alone, stops by way of STOPPING, and refuses what R274 and R275 refuse with its event
(10 R274 to R276). The model's readings in it: log entry 54. -/
def Obligations.RingsStartStopAndReport : Prop :=
  ∀ (s e : State) (t : Nat) (m : Master) (r : Fin 36), s.acts t → e = s.enter t →
    (e.hears m = false → ∀ reg v w posted,
      ∀ c ∈ [Instr.ringConfigWrite t m r reg v, .ringStart t m r, .ringStop t m r, .ringDoorbell t m r w posted],
      Does c s fun s' => s'.body = e.body) ∧
    (∀ reg v, e.hears m = true → (e.ring r).idle = true → Does (.ringConfigWrite t m r reg v) s fun s' =>
      s'.body = (e.setRing r ((e.ring r).write reg v.toNat)).body ∧ (s'.ring r).state = (e.ring r).state) ∧
    (∀ reg v, e.hears m = true → (e.ring r).idle = false → Does (.ringConfigWrite t m r reg v) s fun s' =>
      s'.body = e.body ∧ s'.told (0x80 + r) 4) ∧
    (e.hears m = true → (e.ring r).idle = true → (e.ring r).base ≠ 0 → (32 ≤ r.val → (e.ring r).hostIdx = 0) →
      (r.val < 32 → (e.ring r).hostIdx.toNat ≤ (e.ring r).entries) → Does (.ringStart t m r) s fun s' =>
        (s'.ring r).state = .running ∧ s'.outer = e.outer ∧
        (e.host.rxWait = [] → r.val < 16 ∨ 32 ≤ r.val → s'.body = (e.setRing r { e.ring r with
          state := .running, dev := 0, fetched := [], failed := false, rxPosted := [] }).body) ∧
        (e.host.rxWait = [] → 16 ≤ r.val → r.val < 32 → ∃ again,
          again.length + (e.ring r).rxPosted.length = max (e.ring r).hostIdx.toNat (e.ring r).rxPosted.length ∧
          s'.body = (({ e with draw := s'.draw } : State).setRing r { e.ring r with
            state := .running, dev := 0, fetched := [], failed := false
            rxPosted := again ++
              (e.ring r).rxPosted.drop ((e.ring r).rxPosted.length - (e.ring r).hostIdx.toNat) }).body)) ∧
    (e.hears m = true → (e.ring r).idle = false ∨ (e.ring r).base = 0 ∨ (32 ≤ r.val ∧ (e.ring r).hostIdx ≠ 0) ∨
        (r.val < 32 ∧ (e.ring r).entries < (e.ring r).hostIdx.toNat) → Does (.ringStart t m r) s fun s' =>
      s'.body = e.body ∧ s'.told (0x80 + r) 4) ∧
    (e.hears m = true → (e.ring r).state = .running → Does (.ringStop t m r) s fun s' =>
      (s'.ring r).state = .stopping ∧ s'.outer = e.outer ∧
      (e.host.rxWait = [] → s'.body = (e.setRing r { e.ring r with state := .stopping }).body)) ∧
    (e.hears m = true → (e.ring r).state = .stopping → Does (.ringStop t m r) s fun s' => s'.body = e.body ∧ s'.told (0x80 + r) 4) ∧
    ((e.ring r).state = .stopping → Does (.ringStopped t r) s fun s' =>
      (s'.ring r).state = .stopped ∧ s'.told (0x80 + r) 2 ∧
      s'.body = (e.setRing r { e.ring r with state := .stopped, reason := 0, fetched := [], failed := false }).body) ∧
    (∀ v posted, e.hears m = true → (e.ring r).badIndex (isLog r) v = true → Does (.ringDoorbell t m r v posted) s fun s' =>
      s'.body = e.body ∧ s'.told (0x80 + r) 8) ∧
    (∀ v posted, e.hears m = true → (e.ring r).badIndex (isLog r) v = false →
      (r.val < 16 ∨ 32 ≤ r.val → Does (.ringDoorbell t m r v posted) s fun s' =>
        s'.body = (e.setRing r { e.ring r with hostIdx := v }).body) ∧
      (16 ≤ r.val → r.val < 32 → Does (.ringDoorbell t m r v posted) s fun s' =>
        (s'.ring r).hostIdx = v ∧ s'.outer = e.outer ∧
        (e.host.rxWait = [] → (s'.ring r).rxPosted = (e.ring r).rxPosted ++
          (List.range (v - (e.ring r).hostIdx).toNat).map fun i => slice posted (32 * i) 32))) ∧
    (∀ x, (e.ring r).coalEnd = some x → x ≤ e.now → Does (.ringCoalesceTimeout t r) s fun s' =>
      s'.told (0x80 + r) 1 ∧ s'.body = (e.setRing r { e.ring r with unreported := 0, coalEnd := none }).body)

/-- TX_DESCRIPTOR_FETCH, TX_FRAME_INTAKE and RX_WAIT_LIMIT: a posted descriptor is fetched, or its ring ends in ERROR;
the ring in turn gives a frame to slice 0 at the port's pace, and its descriptor is completed; a copy that has waited for buffers is
dropped (01 R12; 10 R277 to R279). The model's readings in it: log entries 54, 55, 81, 83. -/
def Obligations.FramesCrossTheHostPort : Prop :=
  ∀ (s e : State) (t : Nat) (r : Fin 16), s.acts t → e = s.enter t →
    (∀ desc, (e.ring r).state = .running → e.hostUp = true → (e.ring r).failed = false → (e.ring r).fetched.length < 16 →
      (e.ring r).dev + BitVec.ofNat 16 (e.ring r).fetched.length ≠ (e.ring r).hostIdx →
      (Does (.txDescriptorFetch t r true desc) s fun s' =>
        s'.body = (e.setRing r { e.ring r with fetched := (e.ring r).fetched ++ [txDescOf desc] }).body) ∧
      ((e.ring r).fetched = [] → Does (.txDescriptorFetch t r false desc) s fun s' =>
        s'.told (0x80 + r) 2 ∧ s'.body = (e.setRing r { e.ring r with state := .error, reason := 3 }).body) ∧
      ((e.ring r).fetched ≠ [] → Does (.txDescriptorFetch t r false desc) s fun s' =>
        s'.body = (e.setRing r { e.ring r with failed := true }).body)) ∧
    (∀ d rest ok buffer, (e.ring r).fetched = d :: rest → e.txTurn = some r.val → e.hostUp = true → e.ringsHeld = false →
      (e.ring r).idle = false → e.host.intakeFrom ≤ e.now → Does (.txFrameIntake t r ok buffer) s fun s' =>
        (s'.ring r).dev = (e.ring r).dev + 1 ∧ (s'.ring r).fetched = rest ∧ s'.host.nextTx = (r.val + 1) % 16 ∧
        s'.gave (.dma ((e.ring r).addr (e.ring r).dev.toNat)
          (d.raw.take 24 ++ [byte (e.txStatus d ok)] ++ leBytes 6 0 ++ [0x80])) ∧
        (e.txStatus d ok = 0 → s'.host.intakeFrom = e.now + hostPace (max 60 d.len + 4)) ∧
        (e.txStatus d ok = 0 → e.intakeClosed = none → ∃ v, s'.frame e.buf.nextFrame = some v ∧ v.port = 32 ∧ v.bytes = txBytes d buffer ∧
          v.endAt = some e.now) ∧
        (e.txStatus d ok ≠ 0 → s'.body = { e.body with host := s'.body.host }) ∧ s'.outer = e.outer) ∧
    (∀ (c : Fin 8) x, tfind e.host.rxWait c = some x → x.stop ≤ e.now →
      (∀ id k v, e.rxWaiting c = some (id, k, v) → Does (.rxWaitLimit t c) s fun s' =>
        s'.copy id = none ∧ tfind s'.host.rxWait c = none ∧ s'.outer = e.outer) ∧
      (e.rxWaiting c = none → Does (.rxWaitLimit t c) s fun s' =>
        s'.body = { e.body with host := { e.body.host with rxWait := tdel e.host.rxWait c } }))

/-- REGISTER_WRITE: a size, an alignment or byte enables outside R268 are discarded and recorded, the host is heard over its link alone; a master other than the
host reaches BAR0 alone; of an accepted word, one that no register stands at is discarded and recorded, a read-only word keeps
its value, a word of EVT_ROUTE takes its vector fields, and its group fields from every master but the host, DW_LEN of a window
that is not BUSY takes its fields, the cursor of the FDB unit takes its value, and a decoder of BAR4 takes its base while it is
not committed; 8 bytes are two words, the lower first (02 R37, R55; 04 R103; 10 R268 to R271; 16 R422; 18 R457, R458). The
model's readings in it: log entries 57, 80. -/
def Obligations.RegisterWritesReachTheirBlock : Prop :=
  ∀ (s e : State) (t : Nat) (m : Master) (data : BarData) (w : Nat), s.acts t → e = s.enter t →
    (∀ bar off, e.hears m = false → Does (.registerWrite t m bar off data) s fun s' => s'.body = e.body) ∧
    (∀ bar off, e.hears m = true → m = .host ∨ bar = .bar0 → barSize bar off data.bytes.length = false ∨ data.full = false →
      Does (.registerWrite t m bar off data) s fun s' => s'.told 0x1AA 2 ∧
        s'.body = { e.body with
          acc.hostAccAddr := BitVec.ofNat 32 (barCode bar * 2 ^ 30 + 2 ^ 29 + off % 2 ^ 29) }) ∧
    (∀ bar off, m ≠ .host → bar ≠ .bar0 → Does (.registerWrite t m bar off data) s fun s' => s'.body = e.body) ∧
    (e.hears m = true → data.full = true → data.bytes.length = 4 → w = leAt data.bytes 0 4 →
      (∀ bar off, m = .host ∨ bar = .bar0 → off % 4 = 0 → barAssigned bar off = false →
        Does (.registerWrite t m bar off data) s fun s' => s'.told 0x1AA 1 ∧
          s'.body = { e.body with
            acc.hostAccAddr := BitVec.ofNat 32 (barCode bar * 2 ^ 30 + 2 ^ 29 + off % 2 ^ 29) }) ∧
      (∀ off, off ∈ [0, 4, 8, 0x104, 0x108, 0x110, 0x124, 0x128, 0x12C, 0x130, 0x138, 0x13C, 0x200, 0x208] →
        Does (.registerWrite t m .bar0 off data) s fun s' => s'.body = e.body) ∧
      (∀ n : Fin 1024, Does (.registerWrite t m .bar0 (0x48000 + 4 * n) data) s fun s' =>
        s'.body = { e.body with route := tset 0 e.route n (BitVec.ofNat 32
          ((if m = .host then bits (tget e.route n 0).toNat 16 3 else bits w 16 3) * 2 ^ 16 + bits w 0 12)) }) ∧
      (m = .host → e.dict.secure.busy = false → Does (.registerWrite t m .bar2 4 data) s fun s' =>
        s'.body = { e.body with dict := { e.dict with secure := { e.dict.secure with
          segment := BitVec.ofNat 16 (w / 2 ^ 16), length := BitVec.ofNat 13 w } } }) ∧
      (m = .host → e.dict.nonsecure.busy = false → Does (.registerWrite t m .bar2 0x10004 data) s fun s' =>
        s'.body = { e.body with dict := { e.dict with nonsecure := { e.dict.nonsecure with
          segment := BitVec.ofNat 16 (w / 2 ^ 16), length := BitVec.ofNat 13 w } } }) ∧
      (e.fdb.busy = false → Does (.registerWrite t m .bar0 0x11004 data) s fun s' =>
        s'.body = { e.body with fdb := { e.fdb with cursor := BitVec.ofNat 21 w } }) ∧
      (e.fdb.busy = true → Does (.registerWrite t m .bar0 0x11004 data) s fun s' =>
        s'.body = e.body ∧ s'.told 0x191 4) ∧
      (∀ d : Fin 2, m = .host → (e.decoder d).committed = false → (e.decoder d).locked = false →
        Does (.registerWrite t m .bar4 (0x1210 + 0x20 * d) data) s fun s' =>
          s'.body = (e.setDecoder d { e.decoder d with
            base := setBits (e.decoder d).base 0 32 (w / 2 ^ 28 * 2 ^ 28) }).body)) ∧
    (∀ bar off, e.hears m = true → m = .host ∨ bar = .bar0 → bar ≠ .bar2 → data.full = true → data.bytes.length = 8 → off % 8 = 0 →
      Does (.registerWrite t m bar off data) s fun s' =>
        s'.body = ((e.barWord m bar off (leAt data.bytes 0 4)).barWord m bar (off + 4) (leAt data.bytes 4 4)).body)
/-! ### The dictionary: commands, groups, transfers and the entries whose writes act (02 R19 to R42). `src` is a source whose
answers go straight back: the Marshal, a Judge or the Starter; what a window or a Pouvex request adds is stated once. -/

/-- A dictionary command to which an abort applies completes with the first of R42, is counted, ends the transfer that
R38 ends, and has no other effect; an opcode that Table 2.3 does not give aborts with 0x08B0_0000; through a window it
completes with DONE, RESULT, the latched DW_TAG and the window's event, while the window is BUSY it is dropped with OVERRUN, and
without a host link it reaches nothing (02 R19, R36, R37, R42; 10 R263). The model's readings in it: log entries 71, 72: a row
that comes through a window is a write to its DW_CMD. -/
def Obligations.AbortedCommandsHaveNoEffect : Prop :=
  ∀ (s e : State) (t : Nat) (src : Source), s.acts t → e = s.enter t → e.engineFree →
    (∀ i c n, isDirect src = true → dictCommandOf i = some (t, src, c) → e.check src c = n + 1 → Does i s fun s' =>
      s'.body = ((if endsTransfer c (n + 1) then e.dropTransfer src else e).countCommand (n + 1)).body ∧
      s'.gave (.answer src (n + 1) [])) ∧
    (∀ op n, isDirect src = true → dictOpOf op.toNat = .unknown n → Does (.unknownOpcode t src op) s fun s' =>
      s'.body = (e.countCommand 0x08B00000).body ∧ s'.gave (.answer src 0x08B00000 [])) ∧
    (∀ i c n, e.host.proto ≠ .down → dictCommandOf i = some (t, .secure, c) → e.dict.secure.busy = false → e.check .secure c = n + 1 →
      endsTransfer c (n + 1) = false → Does i s fun s' =>
        s'.told 0x182 3 ∧ s'.body = { e.body with dict := { e.dict with
          aborted := e.dict.aborted + 1
          secure := { e.dict.secure.place c with
            overrun := false, done := true, tag := e.dict.secure.regTag, result := BitVec.ofNat 32 (n + 1), rlen := 0 } } }) ∧
    (∀ i c n, e.host.proto ≠ .down → dictCommandOf i = some (t, .nonsecure, c) → e.dict.nonsecure.busy = false → e.check .nonsecure c = n + 1 →
      endsTransfer c (n + 1) = false → Does i s fun s' =>
        s'.told 0x183 3 ∧ s'.body = { e.body with dict := { e.dict with
          aborted := e.dict.aborted + 1
          nonsecure := { e.dict.nonsecure.place c with
            overrun := false, done := true, tag := e.dict.nonsecure.regTag, result := BitVec.ofNat 32 (n + 1), rlen := 0 } } }) ∧
    (∀ i c, e.host.proto ≠ .down → e.dict.secure.busy = true → dictCommandOf i = some (t, .secure, c) → Does i s fun s' =>
      s'.body = { e.body with dict := { e.dict with secure := { e.dict.secure with overrun := true } } }) ∧
    (∀ i c, e.host.proto ≠ .down → e.dict.nonsecure.busy = true → dictCommandOf i = some (t, .nonsecure, c) →
      Does i s fun s' =>
        s'.body = { e.body with dict := { e.dict with nonsecure := { e.dict.nonsecure with overrun := true } } }) ∧
    (∀ i c w, e.host.proto = .down → w = .secure ∨ w = .nonsecure → dictCommandOf i = some (t, w, c) → Does i s fun s' =>
      s'.body = e.body)

/-- While BUSY is 1, a write to DW_CMD, DW_LEN, DW_TAG or DW_DATA of that window is dropped and sets OVERRUN, whatever the engine
is doing, and the command in progress is unaffected (02 R37). -/
def Obligations.BusyWindowsDropWrites : Prop :=
  ∀ (s e : State) (t : Nat) (off : Nat) (data : BarData), s.acts t → e = s.enter t → e.host.proto ≠ .down → data.full = true →
    (∀ i, i < data.bytes.length / 4 → off + 4 * i < 0xC ∨ 0x1000 ≤ off + 4 * i ∧ off + 4 * i < 0x2000) →
    (e.dict.secure.busy = true → barSize .bar2 off data.bytes.length = true →
      Does (.registerWrite t .host .bar2 off data) s fun s' =>
        s'.body = { e.body with dict := { e.dict with secure := { e.dict.secure with overrun := true } } }) ∧
    (e.dict.nonsecure.busy = true → barSize .bar2 (0x10000 + off) data.bytes.length = true →
      Does (.registerWrite t .host .bar2 (0x10000 + off) data) s fun s' =>
        s'.body = { e.body with dict := { e.dict with nonsecure := { e.dict.nonsecure with overrun := true } } })

/-- A write of true to 0xD000.02 while the pairing role is ACTIVE or HELD returns 0x0840_0001 and has no effect (15 R387), from
every source that no earlier line of R42 refuses: a Judge and the non-secure window may not write it, a locked secure window and
a node that is no anchor reach nothing. The effect is stated of a command that meets a free engine, from a direct source or through
the secure window; log entry 72: the row in a window is a write to its DW_CMD. -/
def Obligations.WarmResetIsRefusedUnderALease : Prop :=
  ∀ (s e : State) (t : Nat) (src : Source), s.acts t → e = s.enter t → e.pair.role = .active ∨ e.pair.role = .held →
    src ≠ .judge → src ≠ .nonsecure → e.sourceCode src = 0 →
    e.check src { op := .write, idx := 0xD000, sub := 2, data := [1] } = 0x08400001 ∧
    (e.engineFree → isDirect src = true → Does (.warmResetRequest t src) s fun s' =>
      s'.gave (.answer src 0x08400001 []) ∧ s'.body = (e.countCommand 0x08400001).body) ∧
    (e.engineFree → src = .secure → e.host.proto ≠ .down → e.dict.secure.busy = false → Does (.warmResetRequest t src) s fun s' =>
      s'.dict.secure.result = 0x08400001 ∧ s'.dict.secure.done = true ∧ s'.told 0x182 3 ∧
      s'.body = { e.body with dict := { e.dict with
        aborted := e.dict.aborted + 1, secure := s'.dict.secure } })

/-- READ, READ_STAGED and WRITE: a read returns the active value, READ_STAGED that of the staging copy; a write goes into its
group's staging copy, whose group it makes STAGED, or becomes the active value; a DORMANT device answers a read of the identity
record, and no other; a read of an entry that the Timekeepers serve wakes their cores at rest (00 R7; 02 R27 to R31, R35; 11 R299). The model's readings in it: log entries 58, 73. -/
def Obligations.EntriesAreReadAndWritten : Prop :=
  (∀ (s e : State) (t : Nat) (src : Source) (idx : BitVec 16) (sub : BitVec 8), s.upAt t → e = s.enter t → e.dormant = true →
    (∀ r, isDirect src = true → e.engineFree → 0x1000 ≤ idx.toNat → idx.toNat ≤ 0x1018 → rowOf idx.toNat sub.toNat = some r →
      e.check src { op := .read, idx := idx.toNat, sub := sub.toNat } = 0 → Does (.read t src idx sub) s fun s' =>
        s'.body = (e.countCommand 0).body ∧ s'.gave (.answer src 0 (e.value false r idx.toNat sub.toNat))) ∧
    (isDirect src = false ∨ idx.toNat < 0x1000 ∨ 0x1018 < idx.toNat → Does (.read t src idx sub) s fun s' =>
      s'.body = e.body)) ∧
  ∀ (s e : State) (t : Nat) (src : Source) (idx : BitVec 16) (sub : BitVec 8) (r : Row), s.acts t → e = s.enter t →
    e.engineFree → isDirect src = true → rowOf idx.toNat sub.toNat = some r → idx ≠ 0x3500 → idx ≠ 0xB200 →
    (e.check src { op := .read, idx := idx.toNat, sub := sub.toNat } = 0 → Does (.read t src idx sub) s fun s' =>
      s'.body = ((if r.server == .timekeepers then e.wakeGroup 1 else e).countCommand 0).body ∧
      s'.gave (.answer src 0 (e.value false r idx.toNat sub.toNat))) ∧
    (e.check src { op := .readStaged, idx := idx.toNat, sub := sub.toNat } = 0 → Does (.readStaged t src idx sub) s fun s' =>
      s'.body = ((if r.server == .timekeepers then e.wakeGroup 1 else e).countCommand 0).body ∧
      s'.gave (.answer src 0 (e.value true r idx.toNat sub.toNat))) ∧
    (∀ data g, e.check src { op := .write, idx := idx.toNat, sub := sub.toNat, data } = 0 → r.group idx.toNat = some g →
      Does (.write t src idx sub data) s fun s' =>
        s'.gave (.answer src 0 []) ∧
        s'.body = { e.body with dict := { e.dict with
          completed := e.dict.completed + 1
          groups := (e.stage g (principalOf src)).dict.groups
          staged := tput e.dict.staged (entryKey idx.toNat sub.toNat) (keptBytes r idx.toNat sub.toNat data) } } ∧
        (s'.cgroup g).state = (if (e.cgroup g).state = .clean then .staged else (e.cgroup g).state) ∧
        ((e.cgroup g).state = .clean → (s'.cgroup g).holder = some (principalOf src)) ∧
        (∀ h, h ≠ g → s'.cgroup h = e.cgroup h)) ∧
    (∀ data, e.check src { op := .write, idx := idx.toNat, sub := sub.toNat, data } = 0 → r.group idx.toNat = none →
      e.writeBlock (principalOf src) idx.toNat sub.toNat (keptBytes r idx.toNat sub.toNat data) = none → idx ≠ 0x3002 →
      Does (.write t src idx sub data) s fun s' =>
        s'.gave (.answer src 0 []) ∧
        s'.body = ((e.setVal idx.toNat sub.toNat (keptBytes r idx.toNat sub.toNat data)).countCommand 0).body)

/-- COMMIT, DISCARD and TIMED_COMMIT_EFFECT: a COMMIT that passes leaves its group CLEAN and COMMITS advanced, and the staging copy
becomes the active set; where the block does nothing of its own at the commit, nothing else changes; the commit of group 0x10
switches the rule version, that of a slice's layout takes its changed ports down and raises the layout event, that of the aging
group starts the age of every entry anew, that of a port's gates makes their set pending from its change time on, and that of the
pairing group that turns pairing on or off starts it DETACHED; a timed one is PENDING until its clock reaches its PTIME; a
commit of a CLEAN group has no effect; a discard puts the active set over the staging copy (02 R32 to R34; 03 R59, R78; 04
R98; 08 R216; 12 R336). The model's readings in it: log entry 71. -/
def Obligations.CommitsActAtOneInstant : Prop :=
  ∀ (s e : State) (t : Nat) (src : Source) (g : BitVec 8), s.acts t → e = s.enter t → e.engineFree → isDirect src = true →
    (∀ data, (e.cgroup g.toNat).state = .clean → e.check src { op := .commit, sub := g.toNat, data } = 0 →
      Does (.commit t src g data) s fun s' => s'.body = (e.countCommand 0).body ∧ s'.gave (.answer src 0 [])) ∧
    ((e.cgroup g.toNat).state = .staged → e.check src { op := .commit, sub := g.toNat } = 0 →
      (g = 0x10 → e.rules.prep ≠ .preparing) → Does (.commit t src g []) s fun s' => s'.gave (.answer src 0 []) ∧
        s'.cgroup g.toNat = { e.cgroup g.toNat with
          state := .clean, holder := none, ptime := {}, pdomain := 0, commits := (e.cgroup g.toNat).commits + 1 }) ∧
    (∀ x, (e.cgroup g.toNat).state = .staged → e.check src { op := .commit, sub := g.toNat } = 0 →
      x = ({ e.dict with
        vals := (e.takeStaged g.toNat).dict.vals, staged := (e.takeStaged g.toNat).dict.staged
        completed := e.dict.completed + 1 } : Dict) →
      (∀ v : Fin 4, g = 0x10 → e.rules.prep ≠ .preparing → e.rules.held = none → e.freeSlot = some v → v ≠ e.currentSlot →
        Does (.commit t src g []) s fun s' =>
          s'.verSlot v = { state := .current, serial := (e.verSlot e.currentSlot).serial + 1, frames := 0
                           action := BitVec.ofNat 128 e.stagedDefault } ∧
          s'.told 0x187 16 ∧
          ((e.verSlot e.currentSlot).frames ≠ 0 → (s'.verSlot e.currentSlot).state = .draining) ∧
          ((e.verSlot e.currentSlot).frames = 0 →
            (s'.verSlot e.currentSlot).state = .free ∧ s'.told 0x187 (2 ^ e.currentSlot.val)) ∧
          (∀ row y, (row, y) ∈ e.rules.rows →
            (if e.stagedBundle.isSome then y.stagedAdd || y.stagedKeep else y.slots.getLsbD e.currentSlot) = true →
            ∃ y', (row, y') ∈ s'.rules.rows ∧ y'.slots.getLsbD v = true ∧
              { y' with slots := y.slots, stagedAdd := y.stagedAdd, stagedKeep := y.stagedKeep } = y) ∧
          (∀ row y', (row, y') ∈ s'.rules.rows → y'.stagedAdd = false ∧ y'.stagedKeep = false ∧
            ∃ y, (row, y) ∈ e.rules.rows ∧ (y'.slots.getLsbD v = true ↔ y.slots.getLsbD v = true ∨
              (if e.stagedBundle.isSome then y.stagedAdd || y.stagedKeep else y.slots.getLsbD e.currentSlot) = true)) ∧
          s'.outer = { e.outer with dict := { x with groups := s'.dict.groups } }) ∧
      (∀ sl : Fin 4, g.toNat = 0x20 + sl → Does (.commit t src g []) s fun s' =>
        s'.told (0x48 + sl) 1 ∧
        (∀ p : Fin 32, p.val / 8 = sl.val → (∃ k ∈ [1, 2, 3], s'.num (0x2000 + p) k ≠ e.num (0x2000 + p) k) →
          (s'.port p).link ≠ .up) ∧
        (∀ p : Fin 32, p.val / 8 ≠ sl.val → s'.port p = e.port p)) ∧
      (g = 0x14 → Does (.commit t src g []) s fun s' =>
        s'.body = { e.body with
          dict := { x with groups := s'.dict.groups }
          fdb := { e.fdb with
            tick := 0, tickAt := e.now, entries := e.fdb.entries.map fun z => (z.1, FdbE.set z.2 65 12 0) } }) ∧
      (∀ p : Fin 32, g.toNat = 0x60 + p → (e.egr p).timed = none → Does (.commit t src g []) s fun s' =>
        ∃ set, set = s'.adminSet s'.active false p ∧
          (s'.egr p).waiting = some (set, changeTime set.base set.cycle
            ((s'.domainPs set.domain + 999) / 1000 + s'.num 0x6400 1 + 1000)) ∧
          ∀ old at_, (e.egr p).waiting = some (old, at_) → e.domainPs old.domain < at_ * 1000 →
            s'.told 0x1A3 2 ∧ (s'.egr p).oper = (e.egr p).oper) ∧
      (g = 0x90 → Does (.commit t src g []) s fun s' =>
        (e.num 0xA000 1 ≠ 1 ∨ s'.num 0xA000 1 ≠ 1 →
          s'.body = { e.body with dict := { x with groups := s'.dict.groups }, pair := {} }) ∧
        (e.num 0xA000 1 = 1 → s'.num 0xA000 1 = 1 →
          s'.body = { e.body with
            dict := { x with groups := s'.dict.groups }
            pair := { e.body.pair with laneUp := e.pair.laneUp &&& BitVec.ofNat 2 (s'.num 0xA000 3) } }))) ∧
    ((∀ x, State.groupEffect e g.toNat x = x) → g.toNat < 0x60 ∨ 0x80 ≤ g.toNat → g ≠ 0x10 →
      ((e.cgroup g.toNat).state = .staged → e.check src { op := .commit, sub := g.toNat } = 0 →
        Does (.commit t src g []) s fun s' => s'.gave (.answer src 0 []) ∧
          s'.body = { e.body with dict := { e.dict with
            vals := (e.takeStaged g.toNat).dict.vals, staged := (e.takeStaged g.toNat).dict.staged
            groups := s'.dict.groups, completed := e.dict.completed + 1 } } ∧
          s'.cgroup g.toNat = { e.cgroup g.toNat with
            state := .clean, holder := none, ptime := {}, pdomain := 0, commits := (e.cgroup g.toNat).commits + 1 } ∧
          ∀ h, h ≠ g.toNat → s'.cgroup h = e.cgroup h) ∧
      (∀ data, data.length = 11 → (e.cgroup g.toNat).state = .staged →
        e.check src { op := .commit, sub := g.toNat, data } = 0 →
        e.domainNs (byteAt data 0) < (commitTime data).toNs →
        Does (.commit t src g data) s fun s' => s'.gave (.answer src 0 []) ∧
          s'.body = ((e.setCgroup g.toNat { e.cgroup g.toNat with
            state := .pending, pdomain := byteAt data 0, ptime := commitTime data }).countCommand 0).body) ∧
      ((e.cgroup g.toNat).state = .pending → (e.cgroup g.toNat).ptime.toNs ≤ e.domainNs (e.cgroup g.toNat).pdomain →
        Does (.timedCommitEffect t g) s fun s' =>
          s'.body = { e.body with dict := { e.dict with
            vals := (e.takeStaged g.toNat).dict.vals, staged := (e.takeStaged g.toNat).dict.staged
            groups := s'.dict.groups } } ∧
          s'.cgroup g.toNat = { e.cgroup g.toNat with
            state := .clean, holder := none, ptime := {}, pdomain := 0, commits := (e.cgroup g.toNat).commits + 1 })) ∧
    (∀ data, e.check src { op := .discard, sub := g.toNat, data } = 0 → g.toNat < 0x60 ∨ 0x80 ≤ g.toNat → g ≠ 0x10 →
      Does (.discard t src g data) s fun s' => s'.gave (.answer src 0 []) ∧
        s'.body = { e.body with dict := { e.dict with
          staged := (e.unstage g.toNat).dict.staged, groups := s'.dict.groups, completed := e.dict.completed + 1 } } ∧
        s'.cgroup g.toNat = { e.cgroup g.toNat with state := .clean, holder := none, ptime := {}, pdomain := 0 } ∧
        (∀ h, h ≠ g.toNat → s'.cgroup h = e.cgroup h) ∧
        (bit (byteAt data 0) 0 = true → (e.cgroup g.toNat).holder.isSome = true → s'.told 0x184 1))

/-- BLOCK_OPEN, BLOCK_SEG, BLOCK_CLOSE, BLOCK_CANCEL, BLOCK_READ, BLOCK_READ_STAGED and BLOCK_ABANDONED: a transfer
opens, takes its segments in order and ends with the block stored, or ends by a cancel or by the idle limit; a read
returns the bytes of the block from its segment on (02 R30, R38). The model's readings in it: log entry 71. -/
def Obligations.TransfersCarryBlocks : Prop :=
  ∀ (s e : State) (t : Nat) (src : Source) (idx : BitVec 16) (sub : BitVec 8) (seg : BitVec 16) (data : List Byte) (r : Row),
    s.acts t → e = s.enter t → e.engineFree → isDirect src = true → rowOf idx.toNat sub.toNat = some r →
    idx ≠ 0x3500 → idx ≠ 0xB200 →
    (e.check src { op := .blockOpen, idx := idx.toNat, sub := sub.toNat, data } = 0 →
      Does (.blockOpen t src idx sub data) s fun s' => s'.gave (.answer src 0 []) ∧
        s'.body = { e.body with dict := { e.dict with
          completed := e.dict.completed + 1
          groups := ((r.group idx.toNat).elim e fun g => e.stage g (principalOf src)).dict.groups
          transfers := e.dict.transfers ++
            [{ src, idx := idx.toNat, sub := sub.toNat, total := leVal data, since := e.now }] } }) ∧
    (e.check src { op := .blockSeg, idx := idx.toNat, sub := sub.toNat, seg := seg.toNat, data } = 0 →
      Does (.blockSeg t src idx sub seg data) s fun s' => s'.gave (.answer src 0 []) ∧
        s'.body = { e.body with dict := { e.dict with
          completed := e.dict.completed + 1
          transfers := e.dict.transfers.map fun x =>
            if x.src = src then { x with data := x.data ++ data, nextSeg := x.nextSeg + 1, since := e.now } else x } }) ∧
    (∀ x g, e.transferOf src = some x → r.group idx.toNat = some g → idx ≠ 0x2301 →
      e.check src { op := .blockClose, idx := idx.toNat, sub := sub.toNat, data } = 0 →
      Does (.blockClose t src idx sub data) s fun s' => s'.gave (.answer src 0 []) ∧
        s'.body = { e.body with dict := { e.dict with
          completed := e.dict.completed + 1
          groups := (e.stage g (principalOf src)).dict.groups
          transfers := e.dict.transfers.filter fun x => x.src != src
          staged := tput e.dict.staged (entryKey idx.toNat sub.toNat) (keptBytes r idx.toNat sub.toNat x.data) } }) ∧
    (∀ x, e.transferOf src = some x → r.group idx.toNat = none → idx ∉ [0xD010, 0xD020, 0x9200] →
      e.writeBlock (principalOf src) idx.toNat sub.toNat (keptBytes r idx.toNat sub.toNat x.data) = none →
      e.check src { op := .blockClose, idx := idx.toNat, sub := sub.toNat, data } = 0 →
      Does (.blockClose t src idx sub data) s fun s' => s'.gave (.answer src 0 []) ∧
        s'.body = (((e.dropTransfer src).setVal idx.toNat sub.toNat
          (keptBytes r idx.toNat sub.toNat x.data)).countCommand 0).body) ∧
    (e.check src { op := .blockCancel, idx := idx.toNat, sub := sub.toNat } = 0 →
      Does (.blockCancel t src idx sub) s fun s' => s'.gave (.answer src 0 []) ∧
        s'.body = ((e.dropTransfer src).countCommand 0).body) ∧
    (e.check src { op := .blockRead, idx := idx.toNat, sub := sub.toNat, seg := seg.toNat } = 0 →
      Does (.blockRead t src idx sub seg) s fun s' => s'.body = (e.countCommand 0).body ∧
        s'.gave (.answer src 0 (e.blockBytes false r idx.toNat sub.toNat (4096 * seg.toNat) 4096))) ∧
    (e.check src { op := .blockReadStaged, idx := idx.toNat, sub := sub.toNat, seg := seg.toNat } = 0 →
      Does (.blockReadStaged t src idx sub seg) s fun s' => s'.body = (e.countCommand 0).body ∧
        s'.gave (.answer src 0 (e.blockBytes true r idx.toNat sub.toNat (4096 * seg.toNat) 4096))) ∧
    (∀ src' x, e.transferOf src' = some x →
      (x.since + e.num 0x1102 0 * 1000 ≤ e.now → Does (.blockAbandoned t src') s fun s' =>
        s'.told 0x185 1 ∧ s'.body = { e.body with dict := { e.dict with
          transfers := e.dict.transfers.filter fun y => y.src != src' } }) ∧
      (e.now < x.since + e.num 0x1102 0 * 1000 → Does (.blockAbandoned t src') s fun s' => s'.body = e.body))

/-- A command on an entry that Marshal firmware serves is handed over, wakes the Marshal's resting cores and waits; MARSHAL_ANSWER completes the oldest of a source
with the code of the firmware, and MARSHAL_SERVICE_TIMEOUT with 0x08A0_0000 once the timeout has passed (02 R39; 11 R299). The model's readings in it: log entry 87. -/
def Obligations.MarshalServesOrTimesOut : Prop :=
  ∀ (s e : State) (t : Nat) (src : Source), s.acts t → e = s.enter t → e.engineFree → isDirect src = true →
    (∀ i c, dictCommandOf i = some (t, src, c) → handedOver c = true → c.op ≠ .blockClose → e.check src c = 0 →
      Does i s fun s' => s'.gave (.service src c) ∧
        s'.body = (({ e with dict := { e.dict with
          served := e.dict.served ++ [{ src, cmd := c, at_ := e.now, limit := e.num 0x1101 0 }] } } : State).wakeGroup 0).body) ∧
    (∀ w (code : BitVec 32), e.servedOf src = some w → w.isRelay = false → w.late e.now = false → e.groupActs 0 = true →
      code ≠ 0 → (∀ x ∈ e.dict.served, x.isRelay = false) →
      Does (.marshalAnswer t src code) s fun s' =>
        s'.gave (.answer src code.toNat []) ∧
        s'.body = { e.body with dict := { e.dict with
          served := e.dict.served.erase w, aborted := e.dict.aborted + 1 } }) ∧
    (∀ w r, e.servedOf src = some w → w.cmd.op = .read → w.late e.now = false → e.groupActs 0 = true →
      rowOf w.cmd.idx w.cmd.sub = some r → w.cmd.idx = 0x3500 ∨ w.cmd.idx = 0xB200 →
      (∀ x ∈ e.dict.served, x.isRelay = false) → Does (.marshalAnswer t src 0) s fun s' =>
        s'.gave (.answer src 0 ((e.dropServed w).value false r w.cmd.idx w.cmd.sub)) ∧
        s'.body = ((e.dropServed w).countCommand 0).body) ∧
    (∀ w (code : BitVec 32), e.servedOf src = some w → w.late e.now = true →
      Does (.marshalAnswer t src code) s fun s' => s'.body = e.body) ∧
    (∀ w, e.servedOf src = some w → w.late e.now = true → (∀ x ∈ e.dict.served, x.isRelay = false) →
      Does (.marshalServiceTimeout t src) s fun s' =>
        s'.gave (.answer src 0x08A00000 []) ∧
        s'.body = { e.body with dict := { e.dict with
          served := e.dict.served.erase w, aborted := e.dict.aborted + 1 } })

/-- The rows that write one entry: a group command falls due 10 µs later, a state request is judged, a warm reset falls
due, boot resumes, fuses are blown and read back, a report is asked for with the outcome that the identity state then gives it,
and the anchor takes its role with one epoch above the highest seen, releases a node or asks it to enrol (11 R290; 13 R347, R354,
R355; 14 R364 to R366; 15 R386, R390, R397 to R405). The model's readings in it: log entries 71, 73, 74, 97. -/
def Obligations.EntryWritesTakeTheirEffect : Prop :=
  ∀ (s e : State) (t : Nat) (src : Source), s.acts t → e = s.enter t → e.engineFree → isDirect src = true →
    (∀ g : Fin 3, e.check src { op := .write, idx := 0x9100 + g, sub := 2, data := [1] } = 0 →
      Does (.groupStop t src g) s fun s' => s'.gave (.answer src 0 []) ∧
        s'.body = { e.body with
          dict := { e.dict with completed := e.dict.completed + 1 }
          proc := { e.proc with commands := e.proc.commands ++ [{ group := g, code := 1, at_ := e.now + 10000000 }] } }) ∧
    (∀ g : Fin 3, e.check src { op := .write, idx := 0x9100 + g, sub := 2, data := [2] } = 0 →
      Does (.groupStart t src g) s fun s' => s'.gave (.answer src 0 []) ∧
        s'.body = { e.body with
          dict := { e.dict with completed := e.dict.completed + 1 }
          proc := { e.proc with commands := e.proc.commands ++ [{ group := g, code := 2, at_ := e.now + 10000000 }] } }) ∧
    (∀ g : Fin 3, e.check src { op := .write, idx := 0x9100 + g, sub := 2, data := [3] } = 0 →
      Does (.groupRestart t src g) s fun s' => s'.gave (.answer src 0 []) ∧
        s'.body = { e.body with
          dict := { e.dict with completed := e.dict.completed + 1 }
          proc := { e.proc with commands := e.proc.commands ++ [{ group := g, code := 3, at_ := e.now + 10000000 }] } }) ∧
    (∀ (target : BitVec 8) d, devOf target.toNat = some d →
      e.check src { op := .write, idx := 0xC000, sub := 2, data := [target] } = 0 →
      Does (.deviceStateRequest t src target) s fun s' =>
        s'.gave (.answer src 0 []) ∧ State.requested (e.countCommand 0) s' d) ∧
    (e.check src { op := .write, idx := 0xD000, sub := 2, data := [1] } = 0 → Does (.warmResetRequest t src) s fun s' =>
      s'.gave (.answer src 0 []) ∧
      s'.body = { e.body with
        dict := { e.dict with completed := e.dict.completed + 1 }
        boot := { e.boot with resetAt := some (e.now + 10000000) } }) ∧
    (e.check src { op := .write, idx := 0xD011, sub := 0, data := [1] } = 0 → Does (.resumeBoot t src) s fun s' =>
      s'.gave (.answer src 0 []) ∧
      s'.body = { e.body with
        dict := { e.dict with completed := e.dict.completed + 1 }
        boot := { e.boot with
          state := .booting, step := 6, set := 2, tried := true
          flashSet := if e.boot.silent then none else e.nv.preferred } }) ∧
    (∀ owner (v : BitVec 8),
      e.check src { op := .write, idx := 0xD100, sub := if owner then 4 else 3, data := [v] } = 0 →
      Does (.securityVersionAdvance t src owner v) s fun s' =>
        s'.gave (.answer src 0 []) ∧ s'.nv = s.nv.burn (e.advanceVersion owner v.toNat).nv ∧
        FusesKept s.nv s'.nv ∧
        s'.body = { e.body with
          nv := s'.nv, dict := { e.dict with completed := e.dict.completed + 1 } }) ∧
    (∀ hash, e.check src { op := .write, idx := 0xD100, sub := 1, data := hash } = 0 →
      Does (.ownerKeyProgram t src hash) s fun s' =>
        s'.gave (.answer src 0 []) ∧ (weakFuses (hashFuses 384 hash ++ [640, 2]) ≠ 0 → s'.told 0x1BB 4) ∧
        s'.body = { e.body with
          dict := { e.dict with completed := e.dict.completed + 1 }
          nv := if Config.fuseUncorrectable 0 || Config.fuseUncorrectable 2 then { s.nv with ownerBad := true }
            else { s.nv with
              ownerHash := orBytes s.nv.ownerHash (slice hash 0 32), ownerSet := true
              lifecycle := s.nv.lifecycle ||| 0b0111 } }) ∧
    (e.check src { op := .write, idx := 0xD100, sub := 2, data := [1] } = 0 → Does (.ownerCoSignature t src) s fun s' =>
      s'.gave (.answer src 0 []) ∧ (weakFuses [641] ≠ 0 → s'.told 0x1BB 4) ∧
      s'.body = { e.body with
        dict := { e.dict with completed := e.dict.completed + 1 }
        nv := if Config.fuseUncorrectable 1 then { s.nv with ownerBad := true } else { s.nv with coSign := true } }) ∧
    (e.check src { op := .write, idx := 0xD100, sub := 7, data := leBytes 4 0x4445434D } = 0 →
      Does (.decommission t src) s fun s' =>
        s'.gave (.answer src 0 []) ∧
        (weakFuses (below 4 fun i => !s.nv.lifecycle.getLsbD i) ≠ 0 → s'.told 0x1BB 4) ∧
        s'.body = { e.body with
          dict := { e.dict with completed := e.dict.completed + 1 }
          nv := if Config.fuseUncorrectable 2 then { s.nv with ownerBad := true }
            else { s.nv with lifecycle := 0b1111 } }) ∧
    (∀ nonce, e.check src { op := .write, idx := 0xD200, sub := 1, data := nonce } = 0 → nonce.length = 32 →
      Does (.attestationRequest t src nonce) s fun s' =>
        s'.gave (.answer src 0 []) ∧ ∃ b, s'.body = { e.body with
          boot := b, dict := { e.dict with completed := e.dict.completed + 1 } } ∧
          (e.boot.hostSlot.generating.isSome = true ∨ e.boot.state ≠ .complete → b = { e.boot with
            hostSlot := { e.boot.hostSlot with queued := some (nonce, e.resultNow) } }) ∧
          (e.boot.hostSlot.generating = none → e.boot.state = .complete →
            (e.ao.identity = .generating → b = { e.boot with
              hostSlot := { e.boot.hostSlot with queued := some (nonce, 0) } }) ∧
            (e.ao.identity = .deferred → b = { e.boot with
              hostSlot := { e.boot.hostSlot with queued := none, generating := some (nonce, 3) } }) ∧
            (e.ao.identity = .exhausted ∨ e.ao.identity = .unavailable → b = { e.boot with
              hostSlot := { e.boot.hostSlot with queued := none, generating := some (nonce, 2) } }) ∧
            (e.ao.identity = .ready → e.lastLeafTaken false = false → b = { e.boot with
              tokens := e.boot.tokens - 1
              hostSlot := { e.boot.hostSlot with
                queued := none, generating := some (nonce, if e.boot.tokens = 0 then 1 else 0) } }))) ∧
    (e.check src { op := .write, idx := 0xB103, sub := 2, data := [1] } = 0 → Does (.takeAnchorRole t src) s fun s' =>
      s'.gave (.answer src 0 []) ∧
      (e.domainRole ≠ 3 → s'.body = (e.countCommand 0).body) ∧
      (e.domainRole = 3 →
        (e.dom.anchor ≠ 62 → s'.told 0x1B3 1) ∧
        (∀ n, s'.live n = if n < 32 ∧ e.rosterRole n = 1 ∧ 1 ≤ e.rosterPartner n ∧ e.rosterPartner n ≤ 31
          then { e.live n with leaseEnd := some (timerEnd e.now 100) } else e.live n) ∧
        s'.body = { e.body with
          dict := { e.dict with completed := e.dict.completed + 1 }
          pair := { e.body.pair with anchorLost := false }
          dom := { e.body.dom with
            highest := BitVec.ofNat 32 (e.dom.highest.toNat + 1), beaconing := true, promoteFrom := timerEnd e.now 115
            anchor := 62, anchorEpoch := BitVec.ofNat 32 (e.dom.highest.toNat + 1), roster := s'.dom.roster } })) ∧
    (∀ node : BitVec 8, e.check src { op := .write, idx := 0xB103, sub := 3, data := [node] } = 0 →
      Does (.releaseNode t src node) s fun s' =>
        s'.gave (.answer src 0 []) ∧
        (e.anchors = false → s'.body = (e.countCommand 0).body) ∧
        (e.anchors = true →
          (e.rosterRole node.toNat = 1 → s'.told 0x1B5 8 ∧ s'.body =
            ((e.setLive node.toNat { e.live node.toNat with released := true }).countCommand 0).body) ∧
          (e.rosterRole node.toNat ≠ 1 → s'.body = (e.countCommand 0).body) ∧
          (e.groupActs 0 = true → ∃ q, ∀ port, port < 2 →
            s'.sends port 0x16 (e.pouvexMessage port node.toNat 0x16 q [1, 0, 0, 0])))) ∧
    (∀ node : BitVec 8, e.check src { op := .write, idx := 0xB103, sub := 4, data := [node] } = 0 →
      Does (.reEnrolNode t src node) s fun s' =>
        s'.gave (.answer src 0 []) ∧ s'.body = (e.countCommand 0).body ∧
        (e.anchors = true → e.rosterRole node.toNat = 1 → e.groupActs 0 = true → ∀ port, port < 2 →
          s'.sends port 0x32 (e.pouvexMessage port 0xFE 0x32 e.dom.seq.toNat
            (e.rosterHash node.toNat ++ [node, byte (b1 (e.rosterForward node.toNat)), 0, 0]))))


/-! ### Active and standby pairs (12) -/

/-- SALLAR_HEARTBEAT_SEND, SALLAR_LANE_TIMEOUT, SALLAR_FRAME_RX, SALLAR_RESEND, GENERATOR_MIRROR_BATCH and DIGEST_EMIT:
a quiet lane sends a heartbeat, a silent lane counts as down, the lanes that are up carry the stream in turn, a good frame brings its lane up and its records are
applied in order, records without an acknowledge go again, and the periodic records go out (12 R317, R319, R320). The
model's readings in it: log entries 62, 63. -/
def Obligations.SallarLanesCarryTheStream : Prop :=
  ∀ (s e : State) (t : Nat) (lane : Fin 2), s.acts t → e = s.enter t →
    (e.laneOn lane = true → (∀ a, tfind e.pair.laneTx lane = some a → timerEnd a 20 ≤ e.now) →
      Does (.sallarHeartbeatSend t lane) s fun s' =>
        s'.gave (.sallar lane (e.sallarFrame 3 [])) ∧
        s'.body = { e.body with pair := { e.body.pair with
          laneTx := tput e.pair.laneTx lane e.now, sallarHb := e.pair.sallarHb + 1
          asked := e.pair.asked || !e.pair.follows
          confirmTx := if e.pair.anchorLost then some e.now else e.pair.confirmTx } }) ∧
    (bit e.pair.laneUp.toNat lane = true → (∀ a, tfind e.pair.laneRx lane = some a → timerEnd a 100 ≤ e.now) →
      Does (.sallarLaneTimeout t lane) s fun s' =>
        s'.told 0x1B1 (2 ^ lane.val) ∧
        s'.body = { e.body with pair := { e.body.pair with laneUp := e.pair.laneUp &&& ~~~(1#2 <<< lane.val) } }) ∧
    (∀ frame, e.laneOn lane = true → e.sallarGood frame = true →
      (bit e.pair.laneUp.toNat lane = false → Does (.sallarFrameRx t lane frame) s fun s' => s'.told 0x1B1 (2 ^ (2 + lane.val))) ∧
      (beAt frame 18 4 < e.pair.epoch.toNat → Does (.sallarFrameRx t lane frame) s fun s' =>
        s'.body = (e.laneSeen lane).body) ∧
      (e.pair.epoch.toNat ≤ beAt frame 18 4 → e.pair.role = .detached ∨ e.pair.role = .fenced →
        Does (.sallarFrameRx t lane frame) s fun s' =>
          s'.body = ((e.laneSeen lane).peerSeen (beAt frame 18 4) (beAt frame 30 2) (BitVec.ofNat 32 (beAt frame 26 4))).body) ∧
      (∀ r x, e.pair.epoch.toNat ≤ beAt frame 18 4 → e.pair.adopt = false → e.pair.role = .standby →
        e.pair.sync = .inSync → e.pair.accepted = [] → e.flow.busy = false → e.locked .memory = true → e.pair.follows = true →
        BitVec.ofNat 32 (beAt frame 22 4) = e.pair.expected →
        sallarRecords (byteAt frame 15 == 2) (beAt frame 34 2) e.pair.expected (frame.drop 36) = [r] →
        (((e.laneSeen lane).peerSeen (beAt frame 18 4) (beAt frame 30 2)
          (BitVec.ofNat 32 (beAt frame 26 4))).peerSequence (byteAt frame 15) e.pair.expected 1).applyRecord r.ty r.body = some x →
        Does (.sallarFrameRx t lane frame) s fun s' =>
          s'.pair.expected = e.pair.expected + 1 ∧ s'.pair.lastApplied = e.pair.expected ∧ s'.outer = e.outer)) ∧
    (e.pairingOn = true → e.pair.role = .active ∨ e.pair.role = .held ∨ e.pair.role = .fenced → e.pair.replay ≠ [] →
      (e.pair.role = .fenced → e.pair.peerEpoch.toNat ≤ e.pair.epoch.toNat) → timerEnd e.pair.ackAt 50 ≤ e.now → Does (.sallarResend t) s fun s' =>
        s'.body = { e.body with pair := { e.body.pair with
          ackAt := e.now, laneTx := s'.pair.laneTx, laneTurn := s'.pair.laneTurn, asked := s'.pair.asked
          confirmTx := s'.pair.confirmTx } } ∧
        ∀ l g rest, e.sallarLane = some l → packRecords e.pair.replay = g :: rest →
          s'.gave (.sallar l (e.sallarFrame (if g.any MirrorRec.bulk then 2 else 1) g))) ∧
    (e.mirrors = true → timerEnd e.pair.batchAt ((e.num 0xA000 5 + 999) / 1000) ≤ e.now → Does (.generatorMirrorBatch t) s fun s' =>
      s'.pair.batchAt = e.now ∧ s'.pair.genDirty = [] ∧ s'.pair.genAll = false ∧ s'.pair.nodeDirty = [] ∧
      s'.body = { e.body with pair := s'.body.pair } ∧
      ∀ h l, e.pair.genAll = false → e.pair.genDirty = [h] → e.pair.nodeDirty = [] → e.sallarLane = some l →
        s'.gave (.sallar l (e.sallarFrame 1 [{
          seq := e.pair.nextSeq, ty := 7
          body := beBytes 2 1 ++ [0, 0] ++ (beBytes 2 h ++ beBytes 2 (e.generator h).toNat) }]))) ∧
    (∀ x, e.mirrors = true → e.nextDigest e.pair.digestPos = some x → Does (.digestEmit t) s fun s' =>
      s'.pair.digestPos = x + 1 ∧ s'.body = { e.body with pair := s'.body.pair } ∧
      ∀ l, e.pair.bulkOn = false → e.sallarLane = some l → s'.gave (.sallar l (e.sallarFrame 1 [{
        seq := e.pair.nextSeq, ty := 9, body := beBytes 4 x ++ tailImage (e.tailVal x) }])))

/-- HEARTBEAT_SEND, GRANT, LEASE_EXPIRY, HOLD_CONFIRM_TIMEOUT, ANCHOR_LOST and FENCE_DRAIN_END: the worker reports to
its anchor, a grant in time renews the lease, an active whose lease runs out holds it where the standby confirms that
the anchor is lost and fences otherwise, and a fenced device drops what is left and goes to HOLD (12 R322, R325, R334).
PROMOTE, DEMOTE, ASSIGN, RESYNC_CLEAR_DONE and BULK_COMPLETE: a standby in step becomes ACTIVE under the new epoch with
every generator leapt, and refuses otherwise; an active that is demoted fences; an assigned standby clears its tables
and is IN_SYNC at the end of the bulk copy (12 R315, R326, R329, R330, R332, R335). The model's readings in it: log
entries 63, 64. -/
def Obligations.LeasesAndRolesMoveByTheAnchor : Prop :=
  (∀ (s e : State) (t : Nat), s.acts t → e = s.enter t →
      (∀ port : Fin 2, e.groupActs 0 = true → e.isWorker = true → e.node ≠ 0xFE → e.dom.anchor ≠ 0xFF →
        (∀ a, tfind e.pair.hbAt port = some a →
          (if e.pairingOn then timerEnd a 20 else a + e.num 0xB000 8 * 1000) ≤ e.now) → Does (.heartbeatSend t port) s fun s' =>
          s'.sends port 0x10
            (e.pouvexMessage port e.dom.anchor.toNat 0x10 e.dom.seq.toNat (e.heartbeatBody e.pair.hbCount.toNat)) ∧
          s'.body = { e.body with pair := { e.body.pair with
            hbCount := e.pair.hbCount + 1
            hbSent := tput (keepRecent e.now e.pair.hbSent) e.pair.hbCount.toNat e.now
            hbAt := tput e.pair.hbAt port e.now } }) ∧
      (∀ src epoch count y, y = (e.takeMsg 0x11 src).body → e.groupActs 0 = true → e.roleMessage src = true →
        e.pair.role = .active ∨ e.pair.role = .held →
        (∀ a, e.heartbeatAt count = some a → e.now ≤ timerEnd a 8 → epoch ≠ e.pair.epoch.toNat →
          Does (.grant t src epoch count) s fun s' => s'.body = y) ∧
        (∀ a, e.heartbeatAt count = some a → e.now ≤ timerEnd a 8 → epoch = e.pair.epoch.toNat →
          Does (.grant t src epoch count) s fun s' =>
          s'.body = { y with pair := { y.pair with role := .active, leaseEnd := some (timerEnd e.now 100) } } ∧
          (e.pair.role = .held → s'.told 0x1B0 8)) ∧
        ((∀ a, e.heartbeatAt count = some a → timerEnd a 8 < e.now) → Does (.grant t src epoch count) s fun s' =>
          s'.body = y ∧ s'.told 0x1B0 1)) ∧
      (∀ x, e.pair.leaseEnd = some x → x ≤ e.now → e.pairingOn = true → e.pair.role = .active →
        (∀ c, e.num 0xA000 7 = 1 → e.pair.confirmRx = some c → e.now ≤ timerEnd c 20 → Does (.leaseExpiry t) s fun s' =>
          s'.body = { e.body with pair := { e.body.pair with role := .held, leaseEnd := none } } ∧ s'.told 0x1B0 6) ∧
        (e.num 0xA000 7 ≠ 1 ∨ (∀ c, e.pair.confirmRx = some c → timerEnd c 20 < e.now) → Does (.leaseExpiry t) s fun s' =>
          s'.body = { e.body with pair := { e.body.pair with
            role := .fenced, leaseEnd := none, drainEnd := some (timerEnd e.now 40), drainDone := false } } ∧
          s'.told 0x1AE 2)) ∧
      (e.pairingOn = true → e.pair.role = .held → (∀ c, e.pair.confirmRx = some c → timerEnd c 100 ≤ e.now) →
        Does (.holdConfirmTimeout t) s fun s' =>
          s'.body = { e.body with pair := { e.body.pair with
            role := .fenced, leaseEnd := none, drainEnd := some (timerEnd e.now 40), drainDone := false } } ∧
          s'.told 0x1B0 8 ∧ s'.told 0x1AE 2) ∧
      (∀ a, e.dom.anchorHeard = some a → timerEnd a 100 ≤ e.now → e.pair.anchorLost = false → e.dom.beaconing = false →
        Does (.anchorLost t) s fun s' =>
          s'.body = { e.body with pair := { e.body.pair with anchorLost := true } } ∧
          (e.pairingOn = true → s'.told 0x1B0 2 ∧ s'.told 0x1AF 8)) ∧
      (∀ x, e.pair.drainEnd = some x → x ≤ e.now → e.pair.role = .fenced → Does (.fenceDrainEnd t) s fun s' =>
        s'.pair.drainEnd = none ∧ s'.pair.drainDone = true ∧ s'.told 0x1AE 4 ∧ (∀ p, p < 34 → (s'.egr p).tx = none) ∧
        (e.pow.target = none → e.pow.state ≠ .hold → s'.pow.target = some (.hold, true)) ∧
        { s'.outer with pow := e.outer.pow } = e.outer)) ∧
  (∀ (s e : State) (t src epoch : Nat), s.acts t → e = s.enter t →
      (e.groupActs 0 = true → e.roleMessage src = true → e.pair.role = .standby → e.pair.epoch.toNat < epoch → e.pair.sync = .inSync →
        e.confirmed = false → e.pair.accepted = [] → Does (.promote t src epoch) s fun s' =>
          s'.pair.role = .active ∧ s'.pair.epoch = BitVec.ofNat 32 epoch ∧ s'.pair.sync = .none ∧
          s'.pair.leaseEnd = some (timerEnd e.now 100) ∧ s'.told 0x1AE 1 ∧
          s'.red.genBase = e.red.genBase + BitVec.ofNat 16 (e.num 0xA000 4) ∧ s'.red.recovery = [] ∧
          s'.dom.safeToPull = false ∧ { s'.outer with pow := e.outer.pow, dom := e.outer.dom } = e.outer) ∧
      (e.groupActs 0 = true → e.roleMessage src = true → e.pair.role = .standby → e.pair.epoch.toNat < epoch →
        e.pair.sync ≠ .inSync ∨ e.confirmed = true → Does (.promote t src epoch) s fun s' =>
          s'.body = (e.takeMsg 0x12 src).body) ∧
      (∀ y, y = (e.takeMsg 0x13 src).body → e.groupActs 0 = true → e.roleMessage src = true → e.pair.role = .active ∨ e.pair.role = .held →
        epoch = e.pair.epoch.toNat → Does (.demote t src epoch) s fun s' =>
          s'.told 0x1AE 8 ∧ s'.told 0x1AE 2 ∧
          s'.body = { y with pair := { y.pair with
            role := .fenced, leaseEnd := none, drainEnd := some (timerEnd e.now 40), drainDone := false } }) ∧
      (∀ role, e.groupActs 0 = true → e.roleMessage src = true → e.pair.epoch.toNat ≤ epoch → role = 0 ∨ role = 2 →
        Does (.assign t src role epoch) s fun s' =>
          s'.pair.role = (if role = 2 then .standby else .detached) ∧ s'.pair.epoch = BitVec.ofNat 32 epoch ∧
          s'.pair.sync = (if role = 2 then .clearing else .none) ∧ s'.pair.leaseEnd = none ∧ s'.pair.replay = [] ∧
          s'.pair.follows = false ∧ s'.pair.accepted = [] ∧ s'.pair.drawn = [] ∧ s'.dom.safeToPull = false ∧ s'.told 0x1AE 16 ∧
          { s'.outer with pow := e.outer.pow, dom := e.outer.dom } = e.outer) ∧
      (e.pairingOn = true → e.pair.role = .standby → e.pair.sync = .clearing → e.pair.accepted = [] → Does (.resyncClearDone t) s fun s' =>
        s'.flow.heads = [] ∧ s'.flow.tails = [] ∧ s'.flow.backmap = [] ∧ s'.flow.free = {} ∧ s'.flow.bindings = [] ∧
        s'.flow.owners = [] ∧ s'.flow.blocks = [] ∧ s'.flow.cam = [] ∧ s'.flow.inserts = [] ∧ s'.flow.pat = [] ∧
        s'.fdb.entries = [] ∧ s'.fdb.excluded = [] ∧ s'.fdb.flushes = [] ∧ s'.pair.sync = .bulk ∧
        ((∃ f ∈ e.fdb.flushes, f.command = true) → s'.fdb.busy = false ∧ s'.told 0x191 1) ∧
        s'.body = { e.body with
          flow := s'.flow, fdb := s'.fdb, buf := { e.buf with frames := s'.buf.frames }, pair := { e.body.pair with sync := .bulk } }) ∧
      (e.pairingOn = true → e.pair.role = .standby → e.pair.sync = .bulk → e.pair.adopt = false →
        e.pair.accepted = [] → e.pair.expected = e.pair.peerNext → e.copyWhole = true →
        Does (.bulkComplete t) s fun s' =>
          s'.told 0x1AF 4 ∧
          s'.body = { e.body with
            flow := { e.flow with inUse := 67108864 - Runs.count e.flow.free.runs }
            pair := { e.body.pair with sync := .inSync, loss := false } }))


/-! ### The domain: the anchor, the roster and Pouvex (13; 12 R322, R324) -/

/-- HEARTBEAT_RX, ANCHOR_LEASE_EXPIRY, BEACON_SEND, BEACON_RX and WITHDRAW_RX: the anchor takes in what a present node
reports and grants the active of the newest epoch its lease, promotes the partner of a silent active or reports why it
may not, beacons every 20 µs ahead of every frame that waits and is not of the lease class, and any device follows the beacon
with the highest epoch; the entry of a node that is not present stays as it stands, and the node is asked to enrol (12 R322,
R324; 13 R342, R346, R347, R353, R355). The model's readings in it: log entries 65, 68, 88. -/
def Obligations.TheAnchorKeepsLeases : Prop :=
  ∀ (s e : State) (t : Nat), s.acts t → e = s.enter t → e.groupActs 0 = true →
    (∀ (node : Nat) (port : Fin 2) b, e.anchors = true → node ≤ 63 → e.rosterRole node = 1 → (e.live node).presence = 2 →
      Does (.heartbeatRx t node port b) s fun s' =>
        (s'.live node).role = b.role ∧ (s'.live node).sync = b.sync ∧ (s'.live node).epoch = b.epoch ∧
        (s'.live node).flags = b.flags ∧ (s'.live node).lanes = b.lanes ∧ (s'.live node).at_ = e.now ∧
        (s'.live node).presence = 2 ∧ (s'.live node).seen = e.us0 % 2 ^ 32 ∧
        (s'.live node).withdraw = bit b.flags 3 ∧ (s'.live node).shownRole = b.role ∧
        (s'.live node).shownSync = b.sync ∧ (s'.live node).shownEpoch = b.epoch ∧
        (b.role = 1 ∨ b.role = 4 → e.rosterPartner node ≠ node →
          (e.live node).promised ≤ b.epoch → (e.live (e.rosterPartner node)).promised ≤ b.epoch →
          (e.live (e.rosterPartner node)).epoch ≤ b.epoch →
          ∃ q, s'.sends port 0x11 (e.pouvexMessage port node 0x11 q (beBytes 4 b.epoch ++ beBytes 2 b.count ++ [0, 0]))) ∧
        s'.body = { e.body with dom := s'.body.dom, pair := { e.body.pair with anchorLost := s'.pair.anchorLost } }) ∧
    (∀ (node : Nat) (port : Fin 2) b, e.anchors = true → node ≤ 63 → e.rosterRole node = 1 → (e.live node).presence ≠ 2 →
      Does (.heartbeatRx t node port b) s fun s' =>
        (s'.live node).presence = (e.live node).presence ∧ (s'.live node).seen = (e.live node).seen ∧
        (s'.live node).withdraw = (e.live node).withdraw ∧ (s'.live node).shownRole = (e.live node).shownRole ∧
        (s'.live node).shownSync = (e.live node).shownSync ∧ (s'.live node).shownEpoch = (e.live node).shownEpoch ∧
        ((e.live node).enrolled = none → ∀ p, p < 2 → s'.sends p 0x32 (e.pouvexMessage p node 0x32 e.dom.seq.toNat
          (e.rosterHash node ++ [byte node, byte (b1 (e.rosterForward node)), 0, 0]))) ∧
        s'.body = { e.body with dom := s'.body.dom, pair := { e.body.pair with anchorLost := s'.pair.anchorLost } }) ∧
    (∀ (n : Fin 64) x p, e.anchors = true → e.rosterPartner n = p → (e.live n).leaseEnd = some x →
      timerEnd x 10 ≤ e.now → e.dom.promoteFrom ≤ e.now → 1 ≤ p → p ≤ 31 →
      (e.noStandby (e.live n) (e.live p) ≠ 0 → Does (.anchorLeaseExpiry t n) s fun s' =>
        s'.told 0x1B2 (e.noStandby (e.live n) (e.live p)) ∧ s'.body = e.body) ∧
      (∀ x', e.noStandby (e.live n) (e.live p) = 0 → p ≠ n.val →
        x' = max (e.live n).epoch (e.live p).epoch + 1 →
        Does (.anchorLeaseExpiry t n) s fun s' =>
          s'.live p = { e.live p with promised := x' } ∧ (∀ m, m ≠ p → s'.live m = e.live m) ∧
          (∀ port, port < 2 → s'.sends port 0x12 (e.pouvexMessage port p 0x12 e.dom.seq.toNat (beBytes 4 x'))) ∧
          (e.brokenPath (e.live n) (e.live p) = true → s'.told 0x1B2 8) ∧
          s'.body = { e.body with dom := { e.body.dom with roster := s'.dom.roster } })) ∧
    (∀ b, e.anchors = true → (∀ a, e.dom.beaconAt = some a → a + 20000000 ≤ e.now) →
      b = beBytes 4 e.dom.anchorEpoch.toNat ++ [byte e.node, byte (b1 (e.rosterRole 62 != 0)), 0, 0]
        ++ beBytes 4 e.dom.rosterCommits ++ beBytes 6 (ptimeOfNs e.ns0).sec ++ beBytes 4 (ptimeOfNs e.ns0).ns →
      Does (.beaconSend t) s fun s' =>
      (∀ port, port < 2 → s'.sends port 0x30 (e.pouvexMessage port 63 0x30 e.dom.seq.toNat b)) ∧
      (∀ port, port < 2 → e.now < (e.wire port).busyUntil → ∃ rest,
        (s'.wire port).waiting = (e.wire port).waiting.filter WireFrame.lease
          ++ (e.pouvexMessage port 63 0x30 e.dom.seq.toNat b).map (fun f => { lease := true, frame := f }) ++ rest ∧
        ∀ f ∈ (e.wire port).waiting, f.lease = false → f ∈ rest) ∧
      s'.body = { e.body with dom := { e.body.dom with beaconAt := some e.now } }) ∧
    (∀ b : BeaconBody, e.domainRole ≠ 0 →
      (∀ all x, e.anchors = false →
        all = (e.dom.beacons.filter fun x => decide (e.now ≤ x.at_ + 100000000) && x.node != b.node) ++
          [{ node := b.node, epoch := b.epoch, at_ := e.now }] →
        bestBeacon e.dom.anchor.toNat all = some x → Does (.beaconRx t b) s fun s' =>
          s'.dom.anchor = BitVec.ofNat 8 x.node ∧ s'.dom.anchorEpoch = BitVec.ofNat 32 x.epoch ∧
          s'.dom.highest = BitVec.ofNat 32 (max e.dom.highest.toNat b.epoch) ∧ s'.dom.beacons = all ∧
          s'.dom.offset = (e.ns0 : Int) - (b.seconds * 1000000000 + b.nanos : Nat) ∧
          (x.node ≠ e.dom.anchor.toNat → s'.told 0x1B3 1) ∧
          s'.body = { e.body with dom := s'.body.dom, pair := { e.body.pair with anchorLost := s'.pair.anchorLost } }) ∧
      (e.dom.anchorEpoch.toNat < b.epoch → Does (.beaconRx t b) s fun s' => s'.dom.beaconing = false)) ∧
    (∀ src y, y = e.takeMsg 0x15 src → e.anchors = true → src ≤ 63 → e.rosterRole src = 1 →
      Does (.withdrawRx t src) s fun s' =>
        s'.body = (y.setLive src { e.live src with withdraw := true }).body ∧
        ((e.live src).withdraw = false → s'.told 0x1B5 4))

/-- ENROL, ENROL_ACK, ANNOUNCE_SEND, ANNOUNCE_RX, ROSTER_LOST_TIMEOUT, STRANGER_TIMEOUT, WITHDRAW_RESEND and
RELEASE_RX: a worker takes the number its anchor enrols it under, and answers an ENROL that it refuses, with the result
of Table 13.5 where it gives one and a free one otherwise; the anchor enrols a device of its roster, notes a stranger, and marks a node present or lost (13 R340, R353 to R355). The
model's readings in it: log entries 66, 67, 88. -/
def Obligations.DevicesEnrolAndLeave : Prop :=
  ∀ (s e : State) (t : Nat), s.acts t → e = s.enter t →
    (∀ (src node : Nat) hash fwd y, y = (e.takeMsg 0x32 src).body → e.groupActs 0 = true →
      (e.isAnchor src = true → hash = ownHash → e.isWorker = true → 1 ≤ node → node ≤ 31 →
        Does (.enrol t src hash node fwd) s fun s' =>
        s'.told 0x1B4 1 ∧ (e.node ≠ 0xFE → e.node ≠ node → s'.told 0x1B4 3) ∧
        (∀ port, port < 2 → s'.sends port 0x33
          (({ e with ao.node := BitVec.ofNat 8 node } : State).pouvexMessage port src 0x33 e.dom.seq.toNat
            [byte node, 0, 0, 0])) ∧
        s'.body = { y with
          ao := { y.ao with node := BitVec.ofNat 8 node }, dom := { y.dom with member := fwd, safeToPull := false } }) ∧
      (hash ≠ ownHash → e.domainRole ≠ 0 → Does (.enrol t src hash node fwd) s fun s' =>
        s'.told 0x1B4 4 ∧ s'.body = y ∧
        ∀ port, port < 2 → s'.sends port 0x33 (e.pouvexMessage port src 0x33 e.dom.seq.toNat [byte node, 1, 0, 0])) ∧
      (hash = ownHash → e.domainRole ≠ 0 → e.isWorker = false → Does (.enrol t src hash node fwd) s fun s' =>
        s'.told 0x1B4 4 ∧ s'.body = y ∧
        ∀ port, port < 2 → s'.sends port 0x33 (e.pouvexMessage port src 0x33 e.dom.seq.toNat [byte node, 2, 0, 0])) ∧
      (hash = ownHash → e.isWorker = true → e.isAnchor src = false ∨ node = 0 ∨ 31 < node →
        Does (.enrol t src hash node fwd) s fun s' =>
        s'.told 0x1B4 4 ∧ s'.body = { y with draw := y.draw + 1 } ∧ ∃ r, 1 ≤ r ∧ r ≤ 255 ∧
        ∀ port, port < 2 → s'.sends port 0x33 (e.pouvexMessage port src 0x33 e.dom.seq.toNat [byte node, byte r, 0, 0])) ∧
      (e.domainRole = 0 → Does (.enrol t src hash node fwd) s fun s' => s'.body = y)) ∧
    (∀ (src node : Nat) y, y = e.takeMsg 0x33 src → e.groupActs 0 = true → e.anchors = true → node ≤ 63 → e.rosterRole node = 1 →
      (src ≠ node → Does (.enrolAck t src node 0) s fun s' => s'.body = y.body) ∧
      (src = node → Does (.enrolAck t src node 0) s fun s' =>
        s'.live node = { e.live node with
          presence := 2, enrolled := none, seen := e.us0 % 2 ^ 32, at_ := e.now, released := false } ∧
        (∀ m, m ≠ node → s'.live m = e.live m) ∧
        s'.dom.strangers = (e.dom.strangers.filter fun x => !(Machine.slice x.2.id 0 32 == e.rosterHash node)) ∧
        ((e.live node).presence ≠ 2 → s'.told 0x1B5 1) ∧
        s'.body = { y.body with dom := { y.body.dom with roster := s'.dom.roster, strangers := s'.dom.strangers } }) ∧
      (Does (.enrolAck t src node 1) s fun s' => s'.told 0x1B5 16 ∧ s'.body = y.body)) ∧
    (e.groupActs 0 = true → e.isWorker = true → e.node = 0xFE → (∀ a, e.dom.announceAt = some a → a + 1000000000 ≤ e.now) →
      Does (.announceSend t) s fun s' =>
        (∀ port, port < 2 → s'.sends port 0x31 (e.pouvexMessage port 63 0x31 e.dom.seq.toNat
          (ownHash ++ Machine.slice Config.serial 0 8 ++ beBytes 2 (e.num 0x1001 0) ++ beBytes 2 (e.num 0x1002 0)
            ++ beBytes 4 (e.num 0x1003 0) ++ [byte e.domainRole, 0, 0, 0]))) ∧
        s'.body = { e.body with dom := { e.body.dom with announceAt := some e.now } }) ∧
    (∀ (port : Fin 2) (b : AnnounceBody) y, y = e.takeMsg 0x31 0xFE → e.groupActs 0 = true → e.anchors = true →
      (∀ n, ((List.range 64).find? fun n => e.rosterRole n != 0 && e.rosterHash n == Machine.slice b.bytes 0 32) = some n →
        e.rosterRole n = 1 → Does (.announceRx t port b) s fun s' =>
          s'.body = y.body ∧ ∀ p, p < 2 → s'.sends p 0x32 (e.pouvexMessage p 0xFE 0x32 e.dom.seq.toNat
            (e.rosterHash n ++ [byte n, byte (b1 (e.rosterForward n)), 0, 0]))) ∧
      (∀ i, ((List.range 64).find? fun n => e.rosterRole n != 0 && e.rosterHash n == Machine.slice b.bytes 0 32) = none →
        (e.dom.strangers.find? fun x => Machine.slice x.2.id 0 32 == Machine.slice b.bytes 0 32) = none →
        firstFrom 0 16 (fun i => (tfind e.dom.strangers i).isNone) = some i → Does (.announceRx t port b) s fun s' =>
          s'.told 0x1B6 1 ∧ s'.body = { y.body with dom := { y.body.dom with
            strangers := tput e.dom.strangers i {
              id := Machine.slice b.bytes 0 48, port, first := e.us0 % 2 ^ 32, last := e.us0 % 2 ^ 32, at_ := e.now } } })) ∧
    (∀ n : Fin 64, e.anchors = true → (e.live n).presence = 2 → (e.live n).at_ + e.num 0xB103 1 * 1000 ≤ e.now →
      Does (.rosterLostTimeout t n) s fun s' =>
        s'.told 0x1B5 2 ∧ s'.body = (e.setLive n { e.live n with presence := 3 }).body) ∧
    (∀ (i : Fin 16) x, tfind e.dom.strangers i = some x → x.at_ + e.num 0xB103 1 * 1000 ≤ e.now →
      Does (.strangerTimeout t i) s fun s' =>
        s'.body = { e.body with dom := { e.body.dom with strangers := tdel e.dom.strangers i } }) ∧
    (∀ d, e.dom.withdrawDue = some d → d ≤ e.now → e.groupActs 0 = true → e.isWorker = true → e.node ≠ 0xFE →
      Does (.withdrawResend t) s fun s' =>
      (∀ port, port < 2 → s'.sends port 0x15
        (e.pouvexMessage port e.dom.anchor.toNat 0x15 e.dom.seq.toNat [0, 0, 0, 0])) ∧
      s'.body = { e.body with dom := { e.body.dom with withdrawDue := some (e.now + e.num 0xB000 10 * 1000) } }) ∧
    (∀ src (flags : BitVec 8) y, y = (e.takeMsg 0x16 src).body → e.groupActs 0 = true → e.isWorker = true → e.isAnchor src = true →
      Does (.releaseRx t src flags) s fun s' =>
        s'.body = { y with dom := { y.dom with safeToPull := bit flags.toNat 0, withdrawDue := none } })

/-- POUVEX_FRAME_RX, POUVEX_REASSEMBLY_TIMEOUT, EVENT_RX, EVENT_ACK and EVENT_RESEND: a good frame of one fragment is
taken in and relayed as R341 says, any other frame changes nothing, a message not whole in time is discarded, and an
event of a worker is logged, acknowledged, and sent again until it is (13 R341 to R345, R350, R351). The model's
readings in it: log entries 15, 66, 88. -/
def Obligations.PouvexMessagesAreTakenIn : Prop :=
  ∀ (s e : State) (t : Nat), s.acts t → e = s.enter t →
    (∀ (port : Fin 2) f, e.domainRole ≠ 0 → e.wireRuns port = true → beAt f 12 2 = 0x88B5 →
      (e.groupActs 0 = true → e.pouvexBad f = none → e.takenFrom (byteAt f 17) (beAt f 20 2) = false → byteAt f 25 = 1 →
        Does (.pouvexFrameRx t port f) s fun s' =>
          s'.body = (e.messageIn {
            port, msg := byteAt f 15, src := byteAt f 17, seq := beAt f 20 2
            body := (f.drop 30).take (min 1024 (beAt f 22 2 - 1024 * byteAt f 24)) }).body) ∧
      (e.pouvexBad f ≠ none ∨ e.takenFrom (byteAt f 17) (beAt f 20 2) = true → Does (.pouvexFrameRx t port f) s fun s' =>
        s'.body = e.body) ∧
      (e.num 0xB000 3 = 1 → e.node ≠ byteAt f 16 → e.node ≠ byteAt f 17 → 1 < byteAt f 19 →
        Does (.pouvexFrameRx t port f) s fun s' =>
          s'.wired (1 - port.val) {
            lease := leaseClass (byteAt f 15), relay := true, frame := splice f 19 [byte (byteAt f 19 - 1)] })) ∧
    (∀ src seq p, e.partialOf src seq = some p → p.since + 1000000000 ≤ e.now →
      Does (.pouvexReassemblyTimeout t src seq) s fun s' => s'.body = (e.dropPartial src seq).body) ∧
    (∀ src b y, y = e.takeMsg 0x20 src → e.groupActs 0 = true → e.isAnchorRole = true → (e.ring 34).logRoom 1 = true →
      Does (.eventRx t src b) s fun s' =>
        s'.gave (.dma ((e.ring 34).addr (e.ring 34).dev.toNat)
          (eventRecord src (beAt b 0 2) (beAt b 4 4) (beAt b 8 8) (Machine.slice b 16 16))) ∧
        (∃ q, ∀ port, port < 2 → s'.sends port 0x21
          (e.pouvexMessage port src 0x21 q (beBytes 2 (beAt b 0 2) ++ Machine.slice b 4 2))) ∧
        (s'.ring 34).dev = (e.ring 34).dev + 1 ∧
        s'.body = { y.body with host := s'.body.host }) ∧
    (∀ (n : Fin 1024) f y, s.calm t → e.groupActs 0 = true → y = e.takeMsg 0x21 e.dom.anchor.toNat → tfind e.dom.forwards n = some f →
      f.replaced = none → Does (.eventAck t n f.seq) s fun s' =>
        s'.dom = { y.dom with forwards := tdel e.dom.forwards n } ∧ s'.body = y.body) ∧
    (∀ (n : Fin 1024) f, e.groupActs 0 = true → e.domainRole ≠ 0 → tfind e.dom.forwards n = some f → f.due ≤ e.now → f.replaced = none →
      Does (.eventResend t n) s fun s' =>
        (∀ port, port < 2 → s'.sends port 0x20
          (e.pouvexMessage port e.dom.anchor.toNat 0x20 e.dom.seq.toNat f.body)) ∧ s'.body = e.body)

/-- DICT_REQ, DICT_RSP and RELAY_RESEND: a request seen before is answered as before, one too many is refused as busy,
and another is served as a command of the anchor, with the whole effect of that command, the fuses that it blows among them, and
is answered with its data; a response completes its leg of the relay, and a request without one
goes again (13 R348, R349; 15 R399). The model's readings in it: log entry 68. -/
def Obligations.RequestsAndRelaysCrossTheDomain : Prop :=
  ∀ (s e : State) (t : Nat), s.acts t → e = s.enter t →
    (∀ src seq b y, y = e.takeMsg 0x01 src → e.servesRequests = true →
      (∀ k, (e.dom.kept.find? fun k => k.src == src && k.seq == seq) = some k → Does (.dictReq t src seq b) s fun s' =>
        s'.body = y.body ∧ ∀ port, port < 2 → s'.sends port 0x02 (e.pouvexMessage port src 0x02 e.dom.seq.toNat k.body)) ∧
      ((e.dom.kept.find? fun k => k.src == src && k.seq == seq) = none →
        (e.dom.requests.any fun k => k.src == src && k.seq == seq) = false → 16 ≤ e.dom.requests.length →
        Does (.dictReq t src seq b) s fun s' => s'.body = y.body ∧
          ∀ port, port < 2 →
            s'.sends port 0x02 (e.pouvexMessage port src 0x02 e.dom.seq.toNat (responseTo b 0x08600001 []))) ∧
      (∀ z x data, (e.dom.kept.find? fun k => k.src == src && k.seq == seq) = none → e.dom.requests = [] →
        z = { y with dom.requests := [{ src, seq, body := b }] } → e.rules.waiting = none → e.dict.served = [] →
        z.check (.pouvex src) (requestOf b) = 0 → z.commitWaits (requestOf b) = false → handedOver (requestOf b) = false →
        z.perform (.pouvex src) (requestOf b) = (data, x) → x.dom.requests = z.dom.requests → x.domainRole ≠ 0 →
        x.groupActs 0 = true →
        Does (.dictReq t src seq b) s fun s' =>
          s'.body = { (x.countCommand 0).body with
            nv := s.nv.burn x.nv
            dom := { x.body.dom with
              requests := [], kept := keepResponse x.dom.kept { src, seq, body := responseTo b 0 data } } } ∧
          ∀ port, port < 2 → s'.sends port 0x02 (x.pouvexMessage port src 0x02 x.dom.seq.toNat (responseTo b 0 data))) ∧
      (∀ z c r answer, (e.dom.kept.find? fun k => k.src == src && k.seq == seq) = none → e.dom.requests = [] →
        z = { y with dom.requests := [{ src, seq, body := b }] } → e.rules.waiting = none → e.dict.served = [] →
        c = requestOf b → c.op = .read → rowOf c.idx c.sub = some r → r.server ≠ .timekeepers → handedOver c = false →
        z.check (.pouvex src) c = 0 → answer = responseTo b 0 (z.value false r c.idx c.sub) →
        Does (.dictReq t src seq b) s fun s' =>
          s'.body = { (y.countCommand 0).body with
            dom := { y.body.dom with kept := keepResponse y.dom.kept { src, seq, body := answer } } } ∧
          ∀ port, port < 2 → s'.sends port 0x02 (y.pouvexMessage port src 0x02 y.dom.seq.toNat answer))) ∧
    (∀ src b l y, y = e.takeMsg 0x02 src → (e.dom.relay.find? fun l => l.node == src) = some l → e.groupActs 0 = true →
      answersRelay e.dom.relayRequest b = true →
      (e.dom.relayAll = true → e.dom.relay.erase l ≠ [] → Does (.dictRsp t src b) s fun s' =>
        s'.body = { y.body with dom := { y.body.dom with
          relay := e.dom.relay.erase l, relayResults := tset 0 e.dom.relayResults l.node (beAt b 8 4) } }) ∧
      (∀ w, e.dom.relayAll = false → e.dict.served = [w] → w.isRelay = true → b ≠ [] → Does (.dictRsp t src b) s fun s' =>
        s'.dom.relayResponse = b ∧ s'.dom.relay = [] ∧ s'.dict.served = [])) ∧
    (∀ node l, (e.dom.relay.find? fun l => l.node == node) = some l → l.due ≤ e.now → e.groupActs 0 = true →
      e.domainRole ≠ 0 → l.resends < 3 →
      Does (.relayResend t node) s fun s' =>
        (∀ port, port < 2 → s'.sends port 0x01 (e.pouvexMessage port node 0x01 l.seq e.dom.relayRequest)) ∧
        s'.body = { e.body with dom := { e.body.dom with
          relay := e.dom.relay.map fun x =>
            if x == l then { l with resends := l.resends + 1, due := e.now + e.num 0xB000 10 * 1000 } else x } })

/-- HEARTBEAT_SEND, GRANT, PROMOTE, DEMOTE, ASSIGN, HEARTBEAT_RX, BEACON_SEND, BEACON_RX, ANNOUNCE_SEND, ANNOUNCE_RX,
ENROL, ENROL_ACK, WITHDRAW_RESEND, WITHDRAW_RX, RELEASE_RX, EVENT_RX, EVENT_ACK, EVENT_RESEND, DICT_REQ, DICT_RSP,
RELAY_RESEND and POUVEX_FRAME_RX: while the Marshal group does not run, the device sends no Pouvex message and takes none
in, so that none of these changes anything but time (11 R291, R292). The model's reading of which of them the Marshal
serves: log entry 66. -/
def Obligations.PouvexStopsWithTheMarshal : Prop :=
  ∀ (s e : State) (t src seq epoch node : Nat) (p : Fin 2) (n : Fin 1024) (q : BitVec 16) (b hash : List Byte) (fwd : Bool)
    (hb : HeartbeatBody) (bb : BeaconBody) (ab : AnnounceBody) (flags : BitVec 8),
    s.acts t → e = s.enter t → e.groupActs 0 = false →
    ∀ c ∈ [Instr.heartbeatSend t p, .grant t src epoch seq, .promote t src epoch, .demote t src epoch,
        .assign t src node epoch, .heartbeatRx t src p hb, .beaconSend t, .beaconRx t bb, .announceSend t,
        .announceRx t p ab, .enrol t src hash node fwd, .enrolAck t src node seq, .withdrawResend t, .withdrawRx t src,
        .releaseRx t src flags, .eventRx t src b, .eventAck t n q, .eventResend t n, .dictReq t src seq b,
        .dictRsp t src b, .relayResend t node, .pouvexFrameRx t p b],
      Does c s fun s' => s'.body = e.body ∧ (s.calm t → (∀ f, c ≠ .pouvexFrameRx t p f) → s'.out = s.out)

/-! ### Power, clocks and the adaptive loops (14; 07 R182) -/

/-- HOLD_DRAIN_END, TRANSITION_COMPLETE, DORMANT_ENTRY, WAKE_N_ASSERT, DORMANT_WAKE_TIMER and SERVICE_BUTTON_WAKE: a drain
that ends drops what is left, a transition that is done reaches its state with its event, the entry into DORMANT stops the
rings, saves the cores, lowers the voltage to its minimum by writes of at most 25 mV and then empties the buffer and stops the slices, the clocks of the switch
and the outputs of every domain but the always-on domain, the exit gives the clocks the interval spent and begins the
link-up of the ports once boot is complete, and an enabled wake source asks for HOLD (14 R361 to R363, R366 to R369). The model's readings in
it: log entries 48, 86. -/
def Obligations.DeviceStatesAreReached : Prop :=
  ∀ (s e : State) (t : Nat), s.upAt t → e = s.enter t →
    (∀ x, s.dormant = false → e.pow.drainEnd = some x → x ≤ e.now → Does (.holdDrainEnd t) s fun s' =>
      s'.pow.drainEnd = none ∧ s'.pow.doneAt = some (e.now + 400000) ∧ (∀ p, p < 34 → (s'.egr p).tx = none) ∧
      { s'.outer with pow := e.outer.pow } = e.outer) ∧
    (∀ d pairing, e.pow.target = some (d, pairing) → e.transitionDone d = true → e.pow.queued = none →
      (s.dormant = false → Does (.transitionComplete t) s fun s' =>
        s'.pow.state = d ∧ s'.pow.target = none ∧ s'.pow.outcome = (if pairing then e.pow.outcome else 1) ∧
        s'.told 0x1B7 1 ∧
        (∀ i, i < 4 → (s'.slice i).state = if (d = .hold ∨ d = .pairStandby) ∧ 1600 ≤ e.num 0x6400 1 ∧ (e.slice i).state ≠ .off ∧
            ({ e with pow.state := d } : State).entryFits i .doze = true then .doze
          else (e.slice i).state) ∧
        s'.body = { e.body with pow := s'.body.pow }) ∧
      (s.dormant = true → e.boot.state = .complete → Does (.transitionComplete t) s fun s' =>
        s'.pow.state = d ∧ s'.pow.target = none ∧ s'.pow.timerEnd = none ∧ s'.told 0x1B7 1 ∧
        (∀ i, i < 4 → e.slicePolicy i ≠ 3 → (s'.slice i).state = if e.num 0x6400 1 < 1600 then .run else .doze) ∧
        (∀ p, p < 32 → e.portMode p ≠ 0 → e.slicePolicy (portSlice p) ≠ 3 → e.pow.unlocked = [] →
          (e.port p).link = .down → (s'.port p).link = .training) ∧
        s'.clock0 = { e.clock0 with value := e.clockNow 0, at_ := e.now } ∧
        s'.clock1 = { e.clock1 with value := e.clockNow 1, at_ := e.now } ∧
        { s'.outer with pow := e.outer.pow, proc := e.outer.proc, clock0 := e.clock0, clock1 := e.clock1 } = e.outer)) ∧
    (s.dormant = false → e.pow.writing = none →
      (e.pow.sinking = true ∨ (e.pow.target = some (.dormant, false) ∧ (e.egress.any fun x => x.2.flushing) = false ∧
          (e.fdb.flushes.any fun f => !f.command) = false ∧ (e.pow.avs = 2 ∨ e.pow.millivolts = e.num 0xC200 1) ∧
          ∀ n, n < 16 → (e.core n).mode ≠ .executing ∧ (e.core n).mode ≠ .wait) →
        (∀ c ∈ e.proc.cores, c.2.mode = .sleep → c.2.restsAt ≤ e.now) → e.pow.queued = none →
        Does (.dormantEntry t) s fun s' =>
        s'.pow.state = .dormant ∧ s'.pow.target = none ∧ s'.told 0x1B7 1 ∧ s'.pair.laneUp = 0 ∧
        s'.pow.timerEnd = (if e.pow.timer = 0 then none else some (e.now + e.pow.timer * 1000)) ∧
        s'.flow.headCache = [] ∧ s'.flow.tailCache = [] ∧ (∀ i, i < 4 → (s'.slice i).state = .off) ∧
        (∀ n, n < 16 → (s'.core n).mode ≠ .executing) ∧
        (∀ r, r < 36 → (e.ring r).state = .running → (s'.ring r).state = .stopped) ∧
        (∀ n, s'.drives (.lane n) = false) ∧ s'.drives .host = false ∧ s'.drives .moduleI2c = false ∧
        s'.drives .avsBus = false ∧ s'.drives .alwaysOn = true ∧
        s'.clock0 = { e.clock0 with value := e.clockNow 0, at_ := e.now, synced := false } ∧
        s'.clock1 = { e.clock1 with value := e.clockNow 1, at_ := e.now, synced := false } ∧
        { s'.outer with pow := e.outer.pow, proc := e.outer.proc, clock0 := e.clock0, clock1 := e.clock1 } = e.outer) ∧
      (e.pow.sinking = true → (∃ c ∈ e.proc.cores, c.2.mode = .sleep ∧ e.now < c.2.restsAt) →
        Does (.dormantEntry t) s fun s' => s'.body = e.body) ∧
      (∀ v, e.pow.target = some (.dormant, false) → (e.egress.any fun x => x.2.flushing) = false →
        (e.fdb.flushes.any fun f => !f.command) = false → e.pow.sinking = false →
        e.pow.avs ≠ 2 → e.pow.millivolts ≠ e.num 0xC200 1 →
        v = (if e.pow.millivolts < e.num 0xC200 1 then min (e.num 0xC200 1) (e.pow.millivolts + 25)
          else max (e.num 0xC200 1) (e.pow.millivolts - 25)) → Does (.dormantEntry t) s fun s' =>
        s'.gave (.avsbus v) ∧ s'.pow.sinking = true ∧ s'.pow.writing = some (v, 0, e.now) ∧
        s'.pow.state = e.pow.state ∧ s'.pow.target = e.pow.target ∧ s'.flow.headCache = [] ∧ s'.flow.tailCache = [] ∧
        (∀ r, r < 36 → (e.ring r).state = .running → (s'.ring r).state = .stopped) ∧
        { s'.outer with pow := e.outer.pow, proc := e.outer.proc } = e.outer)) ∧
    (s.dormant = true → e.pow.target = none →
      (bit (e.num 0xC000 7) 0 = true → Does (.wakeNAssert t) s fun s' => s'.told 0x1B7 8 ∧
        s'.body = { e.body with pow := { e.body.pow with target := some (.hold, false), wakeSource := 1 } }) ∧
      (bit (e.num 0xC000 7) 1 = true → Does (.serviceButtonWake t) s fun s' => s'.told 0x1B7 8 ∧
        s'.body = { e.body with pow := { e.body.pow with target := some (.hold, false), wakeSource := 2 } }) ∧
      (∀ x, bit (e.num 0xC000 7) 2 = true → e.pow.timerEnd = some x → x ≤ e.now → Does (.dormantWakeTimer t) s fun s' =>
        s'.told 0x1B7 8 ∧ s'.body = { e.body with pow := { e.body.pow with
          target := some (.hold, false), wakeSource := 3, timerEnd := none } }))

/-- SLICE_IDLE_ENTRY, SLICE_REACHES_RUN, PLL_LOCK_LOST and PLL_RELOCK: an idle slice rests as its device state and its
policy say, outside a span and before the next; a slice whose wake delay has passed runs; a clock that loses lock is
reported and gates what it drives, with the link of its lane, until it relocks (14 R359, R370, R373; 08 R232). BUFFER_THRESHOLD_EVAL,
PLACEMENT_LOOP_EVAL, RECEIVER_ADAPTATION, VOLTAGE_LOOP_EVAL, AVSBUS_STATUS_POLL, AVSBUS_TIMEOUT and
FREQUENCY_LOOP_EVAL: each loop moves its value by its rule within its envelope, keeps whether it was held at a bound,
and a regulator write is confirmed, retried three times, or given up with the fault, either of which may end an entry into
DORMANT (07 R182; 14 R363, R375 to R383). The model's readings in it: log entries 49, 86. -/
def Obligations.SlicesRestAndLoopsStayInBounds : Prop :=
  (∀ (s e : State) (t : Nat) (sl : Fin 4), s.acts t → e = s.enter t →
      (∀ x, (e.slice sl).state = .run → e.sliceIdle sl = true → e.pow.target = none → e.locked .pipeline = true →
        e.restState sl = some x →
        e.pow.state = .hold ∨ (e.inSpan sl = false ∧ e.keptForPlan sl = false ∧
          ∀ w, e.nextSpan sl = some w → e.now + entryTime x < w) → Does (.sliceIdleEntry t sl) s fun s' =>
          s'.body = { e.body with pow := { e.body.pow with slices := e.slicesBut.map fun y =>
            if y.1 = sl.val then (y.1, { y.2 with state := x, since := e.now, wakeAt := none }) else y } }) ∧
      (∀ w, (e.slice sl).wakeAt = some w → w ≤ e.now → e.locked .pipeline = true → Does (.sliceReachesRun t sl) s fun s' =>
        (s'.slice sl).state = .run ∧ (s'.slice sl).wakeAt = none ∧
        (∀ i, i ≠ sl.val → (s'.slice i).state = (e.slice i).state) ∧
        s'.body = (if (e.slice sl).state = .off
          then (((e.markFull sl).restartFinish sl).putSlice sl .run).fillHands.trainSlice sl else (e.markFull sl).putSlice sl .run).body) ∧
      (∀ pll, e.pllRuns pll = true → e.locked pll = true →
        ((∀ n, pll ≠ .lane n) → Does (.pllLockLost t pll) s fun s' =>
          s'.told 0x1B8 1 ∧ s'.body = { e.body with pow := { e.body.pow with
            unlocked := e.pow.unlocked ++ [pll], gatedAt := if pll = .pipeline then e.now else e.pow.gatedAt } }) ∧
        (∀ n, pll = .lane n → Does (.pllLockLost t pll) s fun s' =>
          s'.told 0x1B8 1 ∧ s'.locked pll = false ∧ (∀ p, e.lanePort n = some p → (s'.port p).link = .down) ∧
          (e.lanePort n = none → bit e.pair.laneUp.toNat (n.val - 32) = true → s'.told 0x1B1 (2 ^ (n.val - 32))) ∧
          { s'.outer with pow := e.outer.pow } = e.outer)) ∧
      (∀ pll x, e.locked pll = false → x = { e with pow.unlocked := e.pow.unlocked.filter (· ≠ pll) } →
        Does (.pllRelock t pll) s fun s' => s'.told 0x1B8 2 ∧
          (pll = .pipeline →
            s'.body = ((List.range 4).foldl State.markFull (x.shiftGaps (e.now - e.pow.gatedAt))).body) ∧
          (∀ n p, pll = .lane n → x.lanePort n = some p → s'.body = (x.startTraining p).body) ∧
          (pll = .memory → e.flow.work = .none → e.pair.accepted = [] →
            s'.flow.hdmWaits = [] ∧ s'.outer = x.outer) ∧
          (∀ n, pll = .lane n → 34 ≤ n.val → x.domainRole ≠ 0 → x.lanePort n = none →
            s'.locked pll = true ∧ { s'.outer with pow := x.outer.pow } = x.outer) ∧
          (pll ≠ .pipeline → pll ≠ .memory → (∀ n, pll = .lane n → x.lanePort n = none ∧ (n.val < 34 ∨ x.domainRole = 0)) →
            s'.body = x.body))) ∧
  (∀ (s e : State) (t : Nat), s.acts t → e = s.enter t →
      (∀ (called : Int) (new : Nat) (clamped : Bool),
        called = (if e.buf.thresholdRefused = true ∧ e.buf.size ≤ 4 * (e.buf.size - e.buf.u)
            then (e.buf.a.toNat : Int) + max 1 (e.buf.a.toNat / 8)
          else if 16 * (e.buf.size - e.buf.u) < e.buf.size then (e.buf.a.toNat : Int) - max 1 (e.buf.a.toNat / 8)
          else e.buf.a.toNat) →
        new = max (e.num 0xC200 4) (min (e.num 0xC200 5) called.toNat) → clamped = decide (called ≠ (new : Int)) →
        Does (.bufferThresholdEval t) s fun s' =>
          (clamped = true → bit e.pow.held.toNat 3 = false → s'.told 0x1B9 8) ∧
          s'.body = { e.body with
            buf := { e.buf with a := BitVec.ofNat 8 new, thresholdRefused := false }
            pow := { e.body.pow with held := BitVec.ofNat 5 (setBits e.pow.held.toNat 3 1 (b1 clamped)) } }) ∧
      (∀ called new : Nat,
        called = (if 32768 < e.pow.replaced then e.flow.threshold.toNat + 1
          else if e.pow.replaced < 2048 ∧ (e.flow.headCache.map fun x => x.2.length).sum < 131072
            then e.flow.threshold.toNat - 1 else e.flow.threshold.toNat) →
        new = max (e.num 0xC200 6) (min (e.num 0xC200 7) called) → Does (.placementLoopEval t) s fun s' =>
          (called ≠ new → bit e.pow.held.toNat 4 = false → s'.told 0x1B9 16) ∧
          s'.body = { e.body with
            flow := { e.flow with threshold := BitVec.ofNat 8 new }
            pow := { e.body.pow with
              replaced := 0, held := BitVec.ofNat 5 (setBits e.pow.held.toNat 4 1 (b1 (called ≠ new))) } }) ∧
      (∀ (lane : Fin 36) code, bit (e.num 0xC200 8) lane = true → e.laneTrained lane = true → e.locked (.lane lane) = true →
        Does (.receiverAdaptation t lane code) s fun s' =>
          (e.num 0xC200 9 < code → bit e.pow.held.toNat 2 = false → s'.told 0x1B9 4) ∧
          (∀ l, l ≠ lane.val → tget s'.pow.taps l (0, 0) = tget e.pow.taps l (0, 0)) ∧
          s'.body = { e.body with draw := e.draw + 2, pow := { e.body.pow with
            codes := tset 0 e.pow.codes lane (min code (e.num 0xC200 9)), taps := s'.pow.taps
            held := BitVec.ofNat 5 (setBits e.pow.held.toNat 2 1 (b1 (e.num 0xC200 9 < code))) } }) ∧
      (∀ (margin low high trim c : Int),
        trim = (if margin < low then e.pow.trim + 5
          else if high < margin ∧ 10 ≤ e.pow.above + 1 then e.pow.trim - 5 else e.pow.trim) →
        c = (fusedMillivolts e.highestStep : Int) + trim → Does (.voltageLoopEval t margin low high) s fun s' =>
          s'.pow.margin = margin ∧
          (fusedMillivolts e.highestStep : Int) + s'.pow.trim = max (e.num 0xC200 1 : Int) (min (e.num 0xC200 2) c) ∧
          (c < e.num 0xC200 1 ∨ (e.num 0xC200 2 : Int) < c → bit e.pow.held.toNat 0 = false → s'.told 0x1B9 1) ∧
          s'.pow.shortfall = (decide ((e.num 0xC200 2 : Int) < c) && decide (margin < low)) ∧
          (e.num 0xC200 2 < c → margin < low → e.pow.shortfall = false → s'.told 0x1B9 64) ∧
          s'.body = { e.body with pow := s'.body.pow }) ∧
      (∀ v n a, e.pow.writing = some (v, n, a) →
        (e.pow.sinking = false → Does (.avsbusStatusPoll t true) s fun s' =>
          s'.pow.millivolts = v ∧ s'.pow.avs = 0 ∧ s'.body = { e.body with pow := s'.body.pow }) ∧
        (e.pow.sinking = true → v = e.num 0xC200 1 → (∀ c ∈ e.proc.cores, c.2.mode = .sleep → c.2.restsAt ≤ e.now) →
          e.pow.queued = none → Does (.avsbusStatusPoll t true) s fun s' =>
          s'.pow.millivolts = v ∧ s'.pow.state = .dormant ∧ s'.pow.target = none ∧ s'.told 0x1B7 1 ∧
          ∀ i, i < 4 → (s'.slice i).state = .off) ∧
        (Does (.avsbusStatusPoll t false) s fun s' => s'.body = e.body) ∧
        (a + 100000000 ≤ e.now → n < 3 → Does (.avsbusTimeout t) s fun s' => s'.gave (.avsbus v) ∧
          s'.body = { e.body with pow := { e.body.pow with writing := some (v, n + 1, e.now), avs := 1 } }) ∧
        (e.now < a + 100000000 → Does (.avsbusTimeout t) s fun s' => s'.body = e.body) ∧
        (a + 100000000 ≤ e.now → 3 ≤ n → e.pow.sinking = false → Does (.avsbusTimeout t) s fun s' => s'.told 0x1B9 32 ∧
          s'.body = { e.body with pow := { e.body.pow with writing := none, avs := 2 } }) ∧
        (a + 100000000 ≤ e.now → 3 ≤ n → e.pow.sinking = true →
          (∀ c ∈ e.proc.cores, c.2.mode = .sleep → c.2.restsAt ≤ e.now) → e.pow.queued = none → Does (.avsbusTimeout t) s fun s' =>
          s'.told 0x1B9 32 ∧ s'.pow.state = .dormant ∧ s'.pow.avs = 2 ∧ s'.pow.millivolts = e.pow.millivolts)) ∧
      (∀ b0 b1 b2 b3, Does (.frequencyLoopEval t b0 b1 b2 b3) s fun s' =>
        (∀ i, i < 4 → (s'.slice i).peak = e.heldNow i ∧ (s'.slice i).state = (e.slice i).state) ∧
        (∀ i, i < 4 → [b0, b1, b2, b3].getD i 0 < 400 → max (e.slice i).peak (e.heldNow i) ≤ 2048 → (e.slice i).state ≠ .off →
          (e.slice i).goal = (e.slice i).step → (e.slice i).step.toNat < 3 → (e.slice i).step.toNat < e.num 0xC200 3 →
          (e.slice i).step.toNat < sliceFloor e.portMode i → (s'.slice i).step = (e.slice i).step + 1) ∧
        s'.body = { e.body with pow := s'.body.pow }))

/-! ### Resets, boot, the identity key and attestation (15), the panel and the sensors (17) -/

/-- COLD_RESET and WARM_RESET: every field is at its reset value but the fuses and the flash, what Table 15.1 keeps, the rail's
voltage and, through a warm reset, the binding of the mailbox channels and the firmware versions of the identity record; a flash
set that was being programmed is lost; while COLD_RST_N is low a warm reset does nothing (15 R386, R388, R398, R401; 11 R301; 17
R430). The model's readings in it: that the queue of commands, the instant and what was sent go on (log entry 4), the values of
the registers to which the spec gives none (5), the kept voltage (16), the level of PERST_N through a cold reset (19), the
free-running time that counts from its release (84), the kept binding (87), and what COLD_RST_N does (89). -/
def Obligations.ResetsKeepWhatTheyKeep : Prop :=
  ∀ (s : State) (t : Nat) (nv : Nv), nv = (if s.boot.updating.isSome then s.nv.erase s.boot.otherSet else s.nv) →
    (∀ c low, (c, low) ∈ [(ColdReset.asserted t, true), (.released t, false)] → Does (.coldReset c) s fun s' =>
      (∀ i, i < 4 → s'.slice i = { since := max s.now t }) ∧
      { s' with pow := { s'.pow with slices := [] } } = { State.reset with
        nv := { nv with ownerBad := false }, ao := { perstHigh := s.ao.perstHigh, coldAt := max s.now t, coldLow := low }
        boot := { retired := s.nv.lifecycle == 0b1111 }, fdb := { tickAt := max s.now t }
        now := max s.now t, clock0 := { at_ := max s.now t }, clock1 := { at_ := max s.now t }
        draw := s.draw, out := if low then s.out else .coldRelease :: s.out, pending := s.pending }) ∧
    (s.ao.coldLow = false → Does (.warmReset t) s fun s' =>
      (∀ i, i < 4 → s'.slice i = { since := max s.now t }) ∧
      { s' with pow := { s'.pow with slices := [] } } = { State.reset with
        nv, ao := { s.ao with warmResets := s.ao.warmResets + 1 }
        boot := { cold := false, retired := s.nv.lifecycle == 0b1111, versions := s.boot.versions }
        pow := { millivolts := s.pow.millivolts }, mbox := { binding := s.mbox.binding, fixed := s.mbox.fixed }
        fdb := { tickAt := max s.now t }
        now := max s.now t, clock0 := { at_ := max s.now t }, clock1 := { at_ := max s.now t }
        draw := s.draw, out := s.out, pending := s.pending }) ∧
    (s.ao.coldLow = true → Does (.warmReset t) s fun s' => s' = { s with now := max s.now t })

/-- BOOT_STEP_DONE and FLASH_UPDATE_DONE: a step of R395 goes on to the next, or fails, or enters RECOVERY, with the
reason of Table 15.6 and the boot event; what the records of a verified dictionary image do at the ninth is no part of this. An
update writes the other set with the next GENERATION, and one that fails leaves it erased (15 R391, R395, R398, R402; 17 R442).
The model's readings in it: log entries 73; 16, that a warm boot keeps the rail that stands; 89, that step 4 ends with the pulse
of FL_RESET_N and the flash turns octal in step 5; 97, of the erased set. -/
def Obligations.BootStepsLeadOn : Prop :=
  ∀ (s e : State) (t : Nat), s.upAt t → e = s.enter t →
    (e.boot.state = .booting →
      (e.boot.step = 1 → s.nv.lifecycle = 0b1111 → ∀ r, Does (.bootStepDone t r) s fun s' =>
        s'.told 0x1BA 8 ∧ s'.body = { e.body with boot := { e.boot with state := .failed, reason := 3 } }) ∧
      (e.boot.step = 1 → s.nv.lifecycle ≠ 0b1111 →
        (Does (.bootStepDone t .done) s fun s' => s'.body = { e.body with boot := { e.boot with step := 2 } }) ∧
        (Does (.bootStepDone t .fuseBad) s fun s' =>
          s'.told 0x1BA 8 ∧ s'.body = { e.body with boot := { e.boot with state := .failed, reason := 1 } }) ∧
        (Does (.bootStepDone t .secretBad) s fun s' => s'.body = { e.body with
          boot := { e.boot with reason := 2, step := 2 }
          ao := { e.ao with secretBad := true, identity := .unavailable } })) ∧
      (e.boot.step = 2 → Does (.bootStepDone t .done) s fun s' =>
        s'.pow.millivolts = (if e.boot.cold = true ∨ e.pow.millivolts = 0 then railDefault else e.pow.millivolts) ∧
        s'.body = { e.body with
          boot := { e.boot with step := 3 }, pow := { e.body.pow with millivolts := s'.pow.millivolts } }) ∧
      (e.boot.step = 3 → e.boot.cold = false → Does (.bootStepDone t .done) s fun s' =>
        s'.body = { e.body with boot := { e.boot with step := 4 } }) ∧
      (e.boot.step = 3 → e.boot.cold = true → Does (.bootStepDone t .done) s fun s' =>
        s'.boot.step = 4 ∧ s'.ao.renewedAt = e.now ∧ s'.ao.leafDue = false ∧ s'.nv = s.nv.burn e.blowLeaf.2.nv ∧ FusesKept s.nv s'.nv ∧
        (e.blowLeaf.1 = false → s'.boot.reason = 0x0050 ∧ s'.told 0x1BB 8 ∧
          s'.ao.identity = if e.ao.secretBad then .unavailable else .exhausted) ∧
        s'.body = { e.body with boot := s'.boot, ao := s'.ao, nv := s'.nv }) ∧
      (e.boot.step = 4 → Does (.bootStepDone t .done) s fun s' =>
        s'.gave .flashReset ∧ s'.body = { e.body with boot := { e.boot with step := 5, flashBus := .single } }) ∧
      (e.boot.step = 5 →
        (Does (.bootStepDone t .flashSilent) s fun s' =>
          s'.told 0x1BA 4 ∧ s'.body = { e.body with
            boot := { e.boot with state := .recovery, reason := 0x0010, silent := true } }) ∧
        (e.chooseSet = none → Does (.bootStepDone t .done) s fun s' =>
          s'.told 0x1BA 4 ∧ s'.body = { e.body with
            boot := { e.boot with state := .recovery, reason := 0x0011, flashBus := .octal } }) ∧
        (∀ n, e.chooseSet = some n → Does (.bootStepDone t .done) s fun s' => s'.body = { e.body with
          boot := { e.boot with flashSet := some n, set := BitVec.ofNat 8 n, step := 6, flashBus := .octal }
          ao := { e.ao with generation := some (dirGeneration (s.nv.flashSet n)) } })) ∧
      (e.boot.step = 6 → Does (.bootStepDone t .done) s fun s' =>
        (byteAt s'.boot.states 0 = 1 → s'.boot.state = .booting ∧ s'.boot.step = 7) ∧
        (byteAt s'.boot.states 0 ≠ 1 →
          (∀ n, e.boot.tried = false → e.boot.flashSet = some n → dirValid (s.nv.flashSet (1 - n)) = true →
            s'.boot.state = .booting ∧ s'.boot.step = 6 ∧ s'.boot.tried = true ∧ s'.boot.flashSet = some (1 - n) ∧
            s'.boot.reason = 0x0012) ∧
          (e.boot.tried = true ∨ (∀ n, e.boot.flashSet = some n → dirValid (s.nv.flashSet (1 - n)) = false) →
            s'.boot.state = .recovery ∧ s'.boot.reason = 0x0013 ∧ s'.told 0x1BA 4)) ∧
        s'.body = { e.body with boot := s'.boot, ao := s'.ao }) ∧
      (e.boot.step = 7 →
        (∀ k, Does (.bootStepDone t (.stackBad k)) s fun s' =>
          s'.told 0x1BA 8 ∧
          s'.body = { e.body with boot := { e.boot with state := .failed, reason := BitVec.ofNat 16 (0x40 + k) } }) ∧
        (Does (.bootStepDone t .done) s fun s' => s'.body = { e.body with
          boot := { e.boot with step := 8 }
          flow := { e.flow with
            heads := [], tails := [], backmap := [], inUse := 0, free := { runs := [(0, 67108864)], young := [] } } })) ∧
      (e.boot.step = 8 → Does (.bootStepDone t .done) s fun s' =>
        s'.boot.step = 9 ∧ s'.boot.state = .booting ∧
        s'.body = { e.body with boot := s'.boot, dict := s'.dict, proc := s'.proc }) ∧
      (e.boot.step = 9 → e.verified 0x10 = false → Does (.bootStepDone t .done) s fun s' =>
        (e.bindings = none → s'.told 0x1AD 8) ∧ s'.body = { e.body with boot := { e.boot with step := 10 } }) ∧
      (e.boot.step = 10 → Does (.bootStepDone t .done) s fun s' =>
        s'.boot.step = 11 ∧
        ∀ g, g < 3 → (s'.group g).state = if e.verified (groupImage g) then .running else (e.group g).state) ∧
      (e.boot.step = 11 → Does (.bootStepDone t .done) s fun s' =>
        s'.boot.state = .complete ∧ s'.num 0x1103 0 = 1 ∧ s'.told 0x1BA (if e.boot.imageBad then 3 else 1) ∧
        ∀ i, i < 4 → s'.slicePolicy i ≠ 3 → (s'.slice i).state = .run)) ∧
    (∀ d n, e.boot.updating = some d → n = e.boot.flashSet.getD 1 →
      (Does (.flashUpdateDone t true) s fun s' =>
        s'.told 0x1BA 16 ∧
        s'.nv.flashSet (1 - n) = withGeneration d ((dirGeneration (s.nv.flashSet n) + 1) % 2 ^ 32) ∧
        s'.nv.flashSet n = s.nv.flashSet n ∧
        s'.body = { e.body with
          boot := { e.boot with update := 2, updating := none }
          ao := { e.ao with generation := some ((dirGeneration (s.nv.flashSet n) + 1) % 2 ^ 32) }
          nv := { s.nv with flashA := s'.nv.flashA, flashB := s'.nv.flashB } }) ∧
      (Does (.flashUpdateDone t false) s fun s' =>
        s'.told 0x1BA 32 ∧ s'.nv.flashSet (1 - n) = [] ∧ s'.nv.flashSet n = s.nv.flashSet n ∧
        s'.body = { e.body with
          boot := { e.boot with update := 4, updating := none }
          nv := { s.nv with flashA := s'.nv.flashA, flashB := s'.nv.flashB } }))

/-- LOWER_TREE_READY, LEAF_RENEWAL, REPORT_READY and ATTEST_TOKEN_REFILL: a lower tree becomes ready, a deferred one is renewed by
one LEAF fuse, a report is stored with its event and a signed one takes a lower leaf, and a token arrives (15 R402 to R405; 17
R436). The model's readings in it: log entry 97. -/
def Obligations.IdentityTreesAndReportsMove : Prop :=
  ∀ (s e : State) (t : Nat), s.upAt t → e = s.enter t →
    (e.boot.state = .complete → e.ao.identity = .generating → e.ao.leafDue = true → Does (.lowerTreeReady t) s fun s' =>
      s'.body = e.body) ∧
    (e.boot.state = .complete → e.ao.identity = .generating → e.ao.leafDue = false → Does (.lowerTreeReady t) s fun s' =>
      s'.told 0x1BB 1 ∧ s'.ao = { e.ao with identity := .ready, lowerLeaf := 0 } ∧
      s'.body = { e.body with ao := s'.ao, boot := s'.boot }) ∧
    (e.ao.identity = .deferred → e.renewalDue = true → Does (.leafRenewal t) s fun s' =>
      s'.nv = s.nv.burn e.blowLeaf.2.nv ∧ FusesKept s.nv s'.nv ∧
      (e.blowLeaf.1 = true → s'.ao = { e.ao with identity := .generating, renewedAt := e.now }) ∧
      (e.blowLeaf.1 = false → s'.ao = { e.ao with identity := .exhausted } ∧ s'.told 0x1BB 8) ∧
      s'.body = { e.body with ao := s'.ao, boot := s'.boot, nv := s'.nv }) ∧
    (e.renewalDue = false → Does (.leafRenewal t) s fun s' => s'.body = e.body) ∧
    (∀ anchor nonce result, (e.reportSlot anchor).generating = some (nonce, result) → Does (.reportReady t anchor) s fun s' =>
      s'.told 0x1BB 16 ∧ (s'.reportSlot anchor).report = e.reportOf anchor nonce result ∧
      (result ≠ 0 → s'.ao = e.ao ∧ s'.nv = s.nv) ∧ (result = 0 → s'.ao.lowerLeaf = e.ao.lowerLeaf + 1) ∧
      s'.body = { e.body with ao := s'.ao, boot := s'.boot, nv := s'.nv }) ∧
    (e.boot.hostSlot.queued = none → e.boot.anchorSlot.queued = none → Does (.attestTokenRefill t) s fun s' =>
      s'.body = { e.body with boot := { e.boot with tokens := min 64 (e.boot.tokens + 1) } })

/-- SENSE_CHAIN_SCAN, MODULE_PRESENCE_CHANGE, LED_CHAIN_LATCH, the service button, IDENTIFY_TIMEOUT and THERMAL_SAMPLE:
a level that differs begins to settle and counts once it has settled, the lights are latched, a short press asks for
the handover and a long one toggles identify for 60 s, and a sample sets the thermal outputs at their thresholds;
IPFIX_MESSAGE_SEND: a message of a running Judge group to the configured collector enters by the recirculation port (17 R437
to R440, R448; 06 R163). The layout of an IPFIX message is the model's (log entry 92). The model's readings in it: log entry 69. -/
def Obligations.ThePanelAndTheSensorsAreRead : Prop :=
  ∀ (s e : State) (t : Nat), s.upAt t → e = s.enter t →
    (∀ chain : BitVec 72, Does (.senseChainScan t chain) s fun s' =>
      s'.body = { e.body with panel := { e.panel with
        interrupts := s'.panel.interrupts, inputs := BitVec.ofNat 8 (chain.toNat / 2 ^ 64), changed := s'.panel.changed } } ∧
      ∀ c, c < 32 → bit s'.panel.interrupts.toNat c = !bit chain.toNat (2 * c + 1) ∧
        tfind s'.panel.changed c = (if e.cageFitted c = false then tfind e.panel.changed c
          else if (!bit chain.toNat (2 * c)) = e.cagePresent c then none
          else some ((tfind e.panel.changed c).getD e.now))) ∧
    (∀ (c : Fin 32) a, tfind e.panel.changed c = some a → e.cagePresent c = false →
      (a + 10000000000 ≤ e.now → e.cageFitted c = false → Does (.modulePresenceChange t c) s fun s' =>
        s'.body = { e.body with panel := { e.panel with changed := tdel e.panel.changed c } }) ∧
      (a + 10000000000 ≤ e.now → e.cageFitted c = true → Does (.modulePresenceChange t c) s fun s' =>
        s'.body = { e.body with panel := { e.panel with
          present := e.panel.present ^^^ BitVec.ofNat 32 (2 ^ c.val), changed := tdel e.panel.changed c } }) ∧
      (e.now < a + 10000000000 → Does (.modulePresenceChange t c) s fun s' => s'.body = e.body)) ∧
    (∀ (c : Fin 32) a, tfind e.panel.changed c = some a → e.cagePresent c = true →
      (a + 1000000000 ≤ e.now → Does (.modulePresenceChange t c) s fun s' =>
        (e.cageFitted c = true → e.portMode c ≠ 0 → (s'.port c).link = .down) ∧
        s'.outer = { e.outer with panel := { e.panel with
          present := e.panel.present ^^^ BitVec.ofNat 32 (2 ^ c.val), changed := tdel e.panel.changed c } }) ∧
      (e.now < a + 1000000000 → Does (.modulePresenceChange t c) s fun s' => s'.body = e.body)) ∧
    (Does (.ledChainLatch t) s fun s' =>
      s'.gave (.ledChain e.ledBits) ∧ s'.body = { e.body with ao := { e.ao with ledOn := true } }) ∧
    (∀ x, e.panel.identifyEnd = some x →
      (x ≤ e.now → Does (.identifyTimeout t) s fun s' =>
        s'.body = { e.body with panel := { e.panel with identifyEnd := none } }) ∧
      (e.now < x → Does (.identifyTimeout t) s fun s' => s'.body = e.body)) ∧
    (∀ x : Temps, Does (.thermalSample t x) s fun s' => s'.body = { e.body with
      panel := { e.panel with
        die := x.die, stack0 := x.stack0, stack1 := x.stack1, dieHigh := max e.panel.dieHigh x.die
        therm := decide (e.thermWarn ≤ x.die) || (e.panel.therm && decide (e.thermWarn - 3000 < x.die))
        refresh0 := decide (85000 < x.stack0), refresh1 := decide (85000 < x.stack1) }
      ao := { e.ao with
        trip := e.ao.trip || (decide (118000 ≤ x.die) || decide (100000 ≤ x.stack0) || decide (100000 ≤ x.stack1)) } }) ∧
    (e.pressWakes = false → Does (.serviceButtonLongPress t) s fun s' => s'.body = { e.body with panel := { e.panel with
      identifyEnd := if e.panel.identifyEnd.isSome then none else some (e.now + 60000000000000) } }) ∧
    (e.pressWakes = true ∨ s.dormant = true → Does (.serviceButtonRelease t) s fun s' => s'.body = e.body) ∧
    (e.pressWakes = true → Does (.serviceButtonLongPress t) s fun s' => s'.body = e.body) ∧
    (s.acts t →
      (e.isWorker = true → e.node ≠ nodeNone → e.dom.withdrawDue = none → Does (.serviceButtonRelease t) s fun s' =>
        s'.body = { e.body with dom := { e.body.dom with withdrawDue := some (e.now + e.resendPs) } }) ∧
      (e.dom.withdrawDue.isSome = true → Does (.serviceButtonRelease t) s fun s' => s'.body = e.body) ∧
      (∀ data, e.groupActs 2 = true → e.groupActs 0 = true → (readAll e.active 0x3500 3 44).any (· != 0) = true →
        e.ipfixFits data = true → e.intakeClosed = none → Does (.ipfixMessageSend t data) s fun s' =>
        (∃ v, s'.frame e.buf.nextFrame = some v ∧ v.port = 33 ∧ v.bytes = withFcs data false) ∧
        s'.body = { e.body with buf := { e.buf with frames := s'.buf.frames, nextFrame := e.buf.nextFrame + 1 } }) ∧
      (∀ data, e.groupActs 2 = false ∨ e.groupActs 0 = false ∨ (readAll e.active 0x3500 3 44).any (· != 0) = false ∨
        e.ipfixFits data = false → Does (.ipfixMessageSend t data) s fun s' => s'.body = e.body))

/-! ### Every command, and every step -/

/-- A step takes the command at the front of the queue and runs it with the rest; on an empty queue the block idles.
That an empty queue idles is the model's choice (log entry 3). -/
def Obligations.StepRunsTheFrontCommand : Prop :=
  (∀ (c : Instr) (s : State), step { s with pending := c :: s.pending } = exec c s) ∧
  (∀ (s : State) (c : Instr) (rest : List Instr), s.pending = c :: rest → step s = exec c { s with pending := rest }) ∧
  (∀ s : State, s.pending = [] → step s = .next s)

/-- Every command is answered with a next state; it leaves the queue as it is, and time never runs back. That a command
outside its condition changes nothing but time is the model's reading (log entry 2). -/
def Obligations.EveryCommandAnswers : Prop :=
  ∀ (c : Instr) (s : State), Does c s fun s' => s'.pending = s.pending ∧ s.now ≤ s'.now

/-- A fuse, once blown, is never unblown: every step keeps every blown fuse (15 R389); no command but those that
`mayBlow` names touches a fuse or the flash: the boot and the resets, the flash update, the identity key, and every command
after which the dictionary engine serves a command or a held request, which may be the anchor's write of a security version (13
R348; 15 R399). The model's readings in it: log entries 74, 97. -/
def Obligations.FusesAreNeverUnblown : Prop :=
  (∀ s s', step s = .next s' → FusesKept s.nv s'.nv) ∧
  (∀ s s', s.decommissioned → step s = .next s' → s'.decommissioned) ∧
  (∀ c s s', mayBlow c = false → exec c s = .next s' → s'.nv = s.nv)

/-- In DORMANT every domain but the always-on domain is off: a command that neither the always-on domain nor a reset
serves has no effect but that of time (14 R363, 10 R283), and what a warm reset keeps changes by none of them. The
model's readings in it: log entry 58. -/
def Obligations.DormantStopsEverythingElse : Prop :=
  ∀ (c : Instr) (s : State), s.dormant = true → answersDormant c = false →
    Does c s fun s' => s'.still = s.still ∧ s'.nv = s.nv ∧ s'.ao = s.ao ∧ s'.dormant = true

/-- The machine at the release of cold reset: boot stands at its first step, the groups are STOPPED, every status word, snapshot
register, window and posted write is clear, the identity registers and the dictionary read their values, and nothing waits. The
registers without a reset value in the spec are no part of this (log entry 5). -/
def Obligations.ResetLeavesTheTablesValues : Prop :=
  State.reset.pending = [] ∧ State.reset.boot.state = .booting ∧ State.reset.boot.step = 1 ∧
  (∀ g, g < 3 → (State.reset.group g).state = .stopped) ∧
  (∀ n, (State.reset.source n).word = 0) ∧ (∀ p, (State.reset.port p).link = .down) ∧
  (∀ g, (State.reset.cgroup g).state = .clean) ∧
  State.reset.cnt.status = 0 ∧ State.reset.cnt.sel = 0 ∧ State.reset.slowBusy = 0 ∧
  State.reset.dict.secure = {} ∧ State.reset.dict.nonsecure = {} ∧
  [0, 4, 8].map (State.reset.barRead .bar0) = [0x47414C4B, 0x32164200, 0x00004832] ∧
  [(0x1101, 0), (0x1102, 0), (0x2400, 3), (0x2400, 4), (0xA000, 3), (0xC200, 1)].map
    (fun x => State.reset.num x.1 x.2) = [100000000, 1000000000, 100000000, 3000, 3, 650]

/-- Each narrow or wide counter stands still under every command but those whose rows, or whose time, move it: a command whose
effect moves few counters or none moves no other, the counters of the reports that any command may make and those of time
apart (02 R47; 11 R306; 13 R342; 14 R384; 16 R411, R424). `countersOf` lists the counters of a command; the resets and the commands that
carry frames, work on the two tables or reach the dictionary engine are no part of this. -/
def Obligations.CountersMoveOnlyWhereTheirRowsSay : Prop :=
  ∀ (c : Instr) (l : List Nat) (s s' : State), countersOf c = some l → exec c s = .next s' →
    ∀ n, n ∉ l → n ∉ reportCounters → n ∉ timeCounters → s'.tally n = s.tally n
end

