-- ==== Sys2Proof/Laws/Bytes.lean ====
section
/-! SUPPORT. Byte strings and checksums: what is written is read back, lengths, and the bounds of the CRCs (00 R3, R4; 02 R459;
15 R391). -/
namespace Sys2Proof.Machine

/-! ### Bytes of a number -/

@[simp] theorem leBytes_length (n v : Nat) : (leBytes n v).length = n := by
  induction n generalizing v with
  | zero => rfl
  | succ n ih => simp [leBytes, ih]

@[simp] theorem beBytes_length (n v : Nat) : (beBytes n v).length = n := by simp [beBytes]

theorem leVal_leBytes (n v : Nat) : leVal (leBytes n v) = v % 256 ^ n := by
  induction n generalizing v with
  | zero => simp [leBytes, leVal, Nat.mod_one]
  | succ n ih => simp [leBytes, leVal, ih, byte, Nat.pow_succ', Nat.mod_mul]

theorem beVal_reverse (bs : List Byte) : beVal bs.reverse = leVal bs := by
  induction bs with
  | nil => rfl
  | cons b l ih =>
    have h : beVal (l.reverse ++ [b]) = 256 * beVal l.reverse + b.toNat := by simp [beVal, List.foldl_append]
    rw [List.reverse_cons, h, ih, leVal, Nat.add_comm]

theorem beVal_beBytes (n v : Nat) : beVal (beBytes n v) = v % 256 ^ n := by
  rw [beBytes, beVal_reverse, leVal_leBytes]

theorem leVal_lt (bs : List Byte) : leVal bs < 256 ^ bs.length := by
  induction bs with
  | nil => simp [leVal]
  | cons b l ih => have := b.isLt; simp only [leVal, List.length_cons, Nat.pow_succ]; omega

@[simp] theorem slice_length (bs : List Byte) (off n : Nat) : (slice bs off n).length = n := by
  simp only [slice, List.length_append, List.length_replicate, List.length_take, List.length_drop]; omega

@[simp] theorem splice_length (bs : List Byte) (off : Nat) (new : List Byte) :
    (splice bs off new).length = max bs.length (off + new.length) := by
  simp only [splice, List.length_append, slice_length, List.length_drop]; omega

theorem slice_append (a b : List Byte) : slice (a ++ b) 0 a.length = a := by simp [slice]

/-! ### Checksums -/

theorem crcShift_lt {p c : Nat} (hp : p < 2 ^ 32) (hc : c < 2 ^ 32) : crcShift p c < 2 ^ 32 := by
  unfold crcShift
  split
  · exact Nat.xor_lt_two_pow (by omega) hp
  · omega

theorem crcByte_lt {p c : Nat} (b : Byte) (hp : p < 2 ^ 32) (hc : c < 2 ^ 32) : crcByte p c b < 2 ^ 32 := by
  have hb : b.toNat < 2 ^ 32 := by have := b.isLt; omega
  unfold crcByte
  repeat apply crcShift_lt hp
  exact Nat.xor_lt_two_pow hc hb

theorem crc_lt {p c : Nat} (bs : List Byte) (hp : p < 2 ^ 32) (hc : c < 2 ^ 32) : crc p c bs < 2 ^ 32 := by
  have h : bs.foldl (crcByte p) c < 2 ^ 32 := by
    induction bs generalizing c with
    | nil => exact hc
    | cons b l ih => exact ih (crcByte_lt b hp hc)
  exact Nat.xor_lt_two_pow h (by decide)

theorem crc32c_lt (bs : List Byte) : crc32c bs < 2 ^ 32 := crc_lt bs (by decide) (by decide)
theorem crc32_lt (bs : List Byte) : crc32 bs < 2 ^ 32 := crc_lt bs (by decide) (by decide)

/-- The CRC that stands at the end of a directory is that of the 4,092 bytes before it. -/
theorem directory_crc (d : List Byte) (h : d.length = 4092) :
    (leAt (d ++ leBytes 4 (crc32c d)) 4092 4 == crc32c (slice (d ++ leBytes 4 (crc32c d)) 0 4092)) = true := by
  have h1 : slice (d ++ leBytes 4 (crc32c d)) 0 4092 = d := by rw [← h]; exact slice_append _ _
  have h2 : ((d ++ leBytes 4 (crc32c d)).drop 4092).take 4 = leBytes 4 (crc32c d) := by
    rw [← h, List.drop_left]; exact List.take_of_length_le (by simp)
  have h3 : crc32c d % 256 ^ 4 = crc32c d := Nat.mod_eq_of_lt (crc32c_lt d)
  rw [leAt, h1, h2, leVal_leBytes, h3]
  exact beq_self_eq_true _

end Sys2Proof.Machine
end

