-- ==== Sys2Proof/Laws/Tab.lean ====
section
/-! SUPPORT. The laws of sparse tables: a read after a write, and the canonical form that every write keeps. -/
namespace Sys2Proof.Machine
variable {α : Type}

@[simp] theorem tfind_tput_same (t : Tab α) (k : Nat) (v : α) : tfind (tput t k v) k = some v := by
  induction t with
  | nil => simp [tput, tfind]
  | cons e r ih =>
    obtain ⟨i, w⟩ := e
    simp only [tput]
    split
    · simp [tfind]
    · split
      · simp [tfind]
      · rename_i h1 h2
        have : ¬ i = k := fun h => h2 h.symm
        simp [tfind, this, ih]

theorem tfind_tput_other (t : Tab α) (k j : Nat) (v : α) (h : j ≠ k) : tfind (tput t k v) j = tfind t j := by
  induction t with
  | nil => simp [tput, tfind, Ne.symm h]
  | cons e r ih =>
    obtain ⟨i, w⟩ := e
    simp only [tput]
    split
    · simp [tfind, Ne.symm h]
    · split
      · rename_i h1 h2
        subst h2
        simp [tfind, Ne.symm h]
      · simp [tfind, ih]

@[simp] theorem tfind_tdel_same (t : Tab α) (k : Nat) : tfind (tdel t k) k = none := by
  induction t with
  | nil => simp [tdel, tfind]
  | cons e r ih =>
    obtain ⟨i, w⟩ := e
    simp only [tdel]
    split
    · exact ih
    · rename_i h
      simp [tfind, h, ih]

theorem tfind_tdel_other (t : Tab α) (k j : Nat) (h : j ≠ k) : tfind (tdel t k) j = tfind t j := by
  induction t with
  | nil => simp [tdel, tfind]
  | cons e r ih =>
    obtain ⟨i, w⟩ := e
    simp only [tdel]
    split
    · rename_i h1
      subst h1
      simp [tfind, Ne.symm h, ih]
    · simp [tfind, ih]

@[simp] theorem tget_tset_same [DecidableEq α] (d : α) (t : Tab α) (k : Nat) (v : α) : tget (tset d t k v) k d = v := by
  unfold tset tget
  split
  · rename_i h
    simp [h]
  · simp

theorem tget_tset_other [DecidableEq α] (d : α) (t : Tab α) (k j : Nat) (v : α) (h : j ≠ k) : tget (tset d t k v) j d = tget t j d := by
  unfold tset tget
  split
  · rw [tfind_tdel_other _ _ _ h]
  · rw [tfind_tput_other _ _ _ _ h]

theorem filter_tput (t : Tab α) (k : Nat) (v : α) :
    (tput t k v).filter (fun e => e.1 != k) = t.filter (fun e => e.1 != k) := by
  induction t with
  | nil => simp [tput]
  | cons e r ih =>
    obtain ⟨i, w⟩ := e
    simp only [tput]
    split
    · simp
    · split
      · rename_i h
        subst h
        simp
      · simp [List.filter_cons, ih]

theorem filter_tdel (t : Tab α) (k : Nat) :
    (tdel t k).filter (fun e => e.1 != k) = t.filter (fun e => e.1 != k) := by
  induction t with
  | nil => simp [tdel]
  | cons e r ih =>
    obtain ⟨i, w⟩ := e
    simp only [tdel]
    split
    · rename_i h
      subst h
      simp [ih]
    · simp [List.filter_cons, ih]

theorem filter_tset [DecidableEq α] (d : α) (t : Tab α) (k : Nat) (v : α) :
    (tset d t k v).filter (fun e => e.1 != k) = t.filter (fun e => e.1 != k) := by
  unfold tset
  split
  · exact filter_tdel t k
  · exact filter_tput t k v

/-! ### The canonical form -/

theorem rising_weaken {o : Option Nat} {t : Tab α} (h : Rising o t = true) : Rising none t = true := by
  cases t with
  | nil => simp [Rising]
  | cons e r =>
    obtain ⟨i, w⟩ := e
    cases o <;> simp_all [Rising]

theorem rising_above {k j : Nat} {t : Tab α} (h : Rising (some k) t = true) (hj : j ≤ k) : Rising (some j) t = true := by
  cases t with
  | nil => simp [Rising]
  | cons e r =>
    obtain ⟨i, w⟩ := e
    simp only [Rising, Bool.and_eq_true, decide_eq_true_eq] at *
    exact ⟨by omega, h.2⟩

theorem rising_tput {t : Tab α} {o : Option Nat} {k : Nat} {v : α} (h : Rising o t = true) (hk : ∀ j, o = some j → j < k) :
    Rising o (tput t k v) = true := by
  induction t generalizing o with
  | nil => cases o <;> simp_all [tput, Rising]
  | cons e r ih =>
    obtain ⟨i, w⟩ := e
    have hr : Rising (some i) r = true := by cases o <;> simp_all [Rising]
    simp only [tput]
    split
    · rename_i hlt
      cases o <;> simp_all [Rising]
    · split
      · rename_i h1 h2
        subst h2
        cases o <;> simp_all [Rising]
      · rename_i h1 h2
        have hh := ih hr (fun j hj => by cases hj; omega)
        cases o <;> simp_all [Rising]

theorem rising_tdel {t : Tab α} {o : Option Nat} {k : Nat} (h : Rising o t = true) : Rising o (tdel t k) = true := by
  induction t generalizing o with
  | nil => simpa [tdel] using h
  | cons e r ih =>
    obtain ⟨i, w⟩ := e
    have hr : Rising (some i) r = true := by cases o <;> simp_all [Rising]
    simp only [tdel]
    split
    · cases o with
      | none => exact rising_weaken (ih hr)
      | some j =>
        have hj : j < i := by simp_all [Rising]
        exact rising_above (ih hr) (Nat.le_of_lt hj)
    · have hh := ih hr
      cases o <;> simp_all [Rising]

theorem all_tput {t : Tab α} {k : Nat} {v : α} {p : Nat × α → Bool} (h : t.all p = true) (hv : p (k, v) = true) :
    (tput t k v).all p = true := by
  induction t with
  | nil => simp [tput, hv]
  | cons e r ih =>
    obtain ⟨i, w⟩ := e
    simp only [tput]
    split
    · simp_all
    · split
      · simp_all
      · simp_all

theorem all_tdel {t : Tab α} {k : Nat} {p : Nat × α → Bool} (h : t.all p = true) : (tdel t k).all p = true := by
  induction t with
  | nil => simp [tdel]
  | cons e r ih =>
    obtain ⟨i, w⟩ := e
    simp only [tdel]
    split <;> simp_all

/-- A write keeps the canonical form. -/
theorem wf_tset [DecidableEq α] (d : α) (t : Tab α) (k : Nat) (v : α) (h : Tab.wf d t = true) : Tab.wf d (tset d t k v) = true := by
  unfold Tab.wf at *
  simp only [Bool.and_eq_true] at *
  unfold tset
  split
  · exact ⟨rising_tdel h.1, all_tdel h.2⟩
  · rename_i hv
    exact ⟨rising_tput h.1 (fun j hj => by cases hj), all_tput h.2 (by simpa using hv)⟩

end Sys2Proof.Machine
end

