-- ==== Sys2Proof/Laws/Reports.lean ====
section
/-! SUPPORT. What reporting can do: raising an event, counting, sending, and the end of a command change nothing of the
body of the state. -/
namespace Sys2Proof.Machine

/-- Two states that differ in reports alone. -/
theorem body_congr {s s' : State} (h : ∃ out evt cnt host dom pair pow,
    s' = { s with out, evt, cnt, host, dom, pair, pow } ∧
    { host with rings := host.rings.filter fun e => e.1 != 35, msixPending := [] }
      = { s.host with rings := s.host.rings.filter fun e => e.1 != 35, msixPending := [] } ∧
    { dom with seq := 0, forwards := [] } = { s.dom with seq := 0, forwards := [] } ∧
    { pair with lost := false } = { s.pair with lost := false } ∧
    pow = s.pow) : s'.body = s.body := by
  obtain ⟨out, evt, cnt, host, dom, pair, pow, rfl, h1, h2, h3, rfl⟩ := h
  simp only [State.body, h1, h2, h3]; rfl

@[simp] theorem body_emit (s : State) (o : Out) : (s.emit o).body = s.body := rfl
@[simp] theorem body_emits (s : State) (o : List Out) : (s.emits o).body = s.body := rfl
@[simp] theorem body_count (s : State) (n k : Nat) : (s.count n k).body = s.body := rfl
@[simp] theorem body_countW (s : State) (n k : Nat) : (s.countW n k).body = s.body := rfl
@[simp] theorem body_setSource (s : State) (n : Nat) (e : EventSource) : (s.setSource n e).body = s.body := rfl

theorem body_msix (s : State) (d : Bool) (v : Nat) : (s.msix d v).body = s.body := by
  unfold State.msix; split <;> rfl

theorem body_fold {α : Type} (f : State → α → State) (h : ∀ s a, (f s a).body = s.body) (l : List α) (s : State) :
    (l.foldl f s).body = s.body := by
  induction l generalizing s with
  | nil => rfl
  | cons a r ih => rw [List.foldl_cons, ih, h]

@[simp] theorem body_queueWire (s : State) (p : Nat) (f : WireFrame) : (s.queueWire p f).body = s.body := rfl
@[simp] theorem body_setWire (s : State) (p : Nat) (w : Wire) : (s.setWire p w).body = s.body := rfl

@[simp] theorem body_pouvexOn (s : State) (p a b c : Nat) (l : List Byte) : (s.pouvexOn p a b c l).body = s.body := by
  unfold State.pouvexOn
  split
  · rfl
  · exact body_fold _ (fun s a => body_queueWire ..) _ s

theorem body_pouvexSend (s : State) (a b : Nat) (l : List Byte) : (s.pouvexSend a b l).body = s.body := by
  unfold State.pouvexSend
  split
  · rfl
  · simp only [body_pouvexOn]; rfl

@[simp] theorem body_sendWire (n : Nat) (s : State) (p : Nat) : (s.sendWire n p).body = s.body := by
  unfold State.sendWire
  dsimp only
  split
  · rfl
  · exact (body_fold _ (fun s a => by unfold State.wireOut; split <;> rfl) _ _).trans (body_setWire ..)

/-- What the marshal ports send changes reports alone. -/
@[simp] theorem body_sendWires (s : State) (n : Nat) : (s.sendWires n).body = s.body :=
  body_fold _ (body_sendWire n) _ s

theorem body_forwardNow (s : State) (n : Nat) (q : BitVec 16) (l : List Byte) : (s.forwardNow n q l).body = s.body := by
  unfold State.forwardNow
  dsimp only
  split
  · simp only [body_count, body_pouvexSend]; rfl
  · rfl

theorem body_forward (s : State) (n : Nat) (e : EventSource) : (s.forward n e).body = s.body := by
  unfold State.forward
  split
  · dsimp only
    split
    · exact body_forwardNow ..
    · rfl
  · rfl

theorem body_setRing35 (s : State) (g : Ring) : (s.setRing 35 g).body = s.body := by
  simp only [State.body, State.setRing, filter_tset]; rfl

/-- A raiser that leaves the body as it is. -/
def Keeps (raise : Raiser) : Prop := ∀ n f c s, (raise n f c s).body = s.body

theorem body_ringComplete35 {raise : Raiser} (h : Keeps raise) (s : State) : (ringComplete raise 35 s).body = s.body := by
  unfold ringComplete
  dsimp only
  split
  · rw [h, body_setRing35]
  · exact body_setRing35 ..

theorem body_logWrite35 {raise : Raiser} (h : Keeps raise) (rec : List Byte) (s : State) :
    (logWrite raise 35 rec s).2.body = s.body := by
  unfold logWrite
  dsimp only
  split
  · simp only [body_ringComplete35 h, body_count, body_setRing35, body_emit]
  · simp only [h _ _ _ _, body_count]

theorem body_irqs (s : State) (n : Nat) (l : List Nat) :
    (l.foldl (fun s g => s.emit (.groupIrq g n)) s).body = s.body := by
  induction l generalizing s with
  | nil => rfl
  | cons g r ih => rw [List.foldl_cons, ih, body_emit]

theorem body_advanceEffects {raise : Raiser} (h : Keeps raise) (d : Bool) (n : Nat) (s : State) :
    (advanceEffects raise d n s).body = s.body := by
  unfold advanceEffects
  extract_lets e rt s1 s2 s3
  have h1 : s1.body = s.body := by unfold s1; split <;> simp [body_msix]
  have h2 : s2.body = s.body := (body_irqs ..).trans h1
  rw [body_forward]
  unfold s3
  split
  · split
    rename_i ok s4 heq
    have h4 : s4.body = s.body := by
      rw [show s4 = (logWrite raise 35 (eventRecord s2.node n e.word e.time.toNat e.capture) s2).2 from
        (congrArg Prod.snd heq).symm, body_logWrite35 h, h2]
    split <;> rw [body_count, h4]
  · exact h2

theorem body_seqAdvance {raise : Raiser} (h : Keeps raise) (d : Bool) (n f a : Nat) (s : State) :
    (seqAdvance raise d n f a s).body = s.body := by
  unfold seqAdvance
  dsimp only
  rw [body_advanceEffects h, body_setSource]

theorem body_closeHoldOff {raise : Raiser} (h : Keeps raise) (d : Bool) (n : Nat) (s : State) :
    (closeHoldOff raise d n s).body = s.body := by
  unfold closeHoldOff
  dsimp only
  split
  · split
    · exact body_seqAdvance h ..
    · rfl
  · rfl

theorem keeps_raiseWith {raise : Raiser} (h : Keeps raise) (d : Bool) : Keeps (raiseWith raise d) := by
  intro n f c s
  unfold raiseWith
  extract_lets s1 c1 s2 e inHold
  have h1 : s1.body = s.body := body_closeHoldOff h ..
  have h2 : s2.body = s.body := by unfold s2; split <;> exact h1
  split
  · rw [body_setSource, h2]
  · rw [body_seqAdvance h, body_setSource, h2]

theorem keeps_raiseN : ∀ k d, Keeps (raiseN k d)
  | 0, _ => fun _ _ _ _ => rfl
  | k + 1, d => keeps_raiseWith (keeps_raiseN k d) d

/-- Raising an event changes reports alone. -/
@[simp] theorem body_raise (s : State) (n f : Nat) (c : List Byte) : (s.raise n f c).body = s.body :=
  keeps_raiseN 4 s.dormant n f c s

@[simp] theorem body_memEvent (s : State) (m : Nat) (u b : Bool) (c : List Byte) : (s.memEvent m u b c).body = s.body := by
  unfold State.memEvent; simp

theorem body_cut (s : State) (f d : Bool) : (s.cut f d).body = s.body := rfl

theorem body_takeFreeze (s : State) : s.takeFreeze.body = s.body := by
  unfold State.takeFreeze
  dsimp only
  split
  · exact (body_cut (s.count Num.freezes) true s.cnt.freezeDump).trans (body_count ..)
  · split
    · split <;> rfl
    · rfl

/-- What the end of a command settles is reports alone. -/
@[simp] theorem body_settle (s : State) : s.settle.body = s.body := by
  unfold State.settle
  extract_lets sat c1 s1 s2 lost p1 s3 s4 s5
  rw [body_sendWires]
  have h2 : s2.body = s.body := body_fold _ (fun s a => body_raise ..) _ s1
  have h4 : s4.body = s.body := by
    unfold s4; split
    · rw [body_raise]; exact h2
    · exact h2
  exact (body_takeFreeze s4).trans h4

theorem slicesBut_setIdle (s : State) (i : Nat) (x : Option Nat) :
    (s.setSlice i { s.slice i with idleSince := x }).slicesBut = s.slicesBut := by
  unfold State.slicesBut
  refine List.map_congr_left fun j _ => ?_
  by_cases h : j = i
  · subst h; simp only [State.slice, State.setSlice, tget_tset_same]
  · simp only [State.slice, State.setSlice, tget_tset_other _ _ _ _ _ h]

/-- The idle instant of a slice is the one thing that the end of a command changes of it. -/
theorem body_setIdle (s : State) (i : Nat) (x : Option Nat) :
    (s.setSlice i { s.slice i with idleSince := x }).body = s.body := by
  have h := slicesBut_setIdle s i x
  unfold State.body
  rw [h]; rfl

@[simp] theorem body_markIdle (s : State) : s.markIdle.body = s.body := by
  unfold State.markIdle
  refine body_fold _ (fun s a => ?_) _ s
  dsimp only
  split <;> split <;> first | rfl | exact body_setIdle ..

end Sys2Proof.Machine
end

