-- ==== Sys2Proof/Laws/Told.lean ====
section
/-! SUPPORT. What reporting only adds to: an event once told stays told and an output once sent stays sent, whatever is
counted, raised or sent after it. -/
namespace Sys2Proof.Machine

/-- Nothing told or sent in `s` is lost in `s'`. -/
def Grows (s s' : State) : Prop := (∀ n f, s.told n f → s'.told n f) ∧ ∀ o, s.gave o → s'.gave o

theorem Grows.refl (s : State) : Grows s s := ⟨fun _ _ h => h, fun _ h => h⟩
theorem Grows.trans {a b c : State} (h : Grows a b) (k : Grows b c) : Grows a c :=
  ⟨fun n f x => k.1 n f (h.1 n f x), fun o x => k.2 o (h.2 o x)⟩

theorem told_of_evt {s s' : State} (h : s'.evt = s.evt) (n f : Nat) : s'.told n f ↔ s.told n f := by
  unfold State.told State.source; rw [h]
theorem gave_of_out {s s' : State} (h : s'.out = s.out) (o : Out) : s'.gave o ↔ s.gave o := by
  unfold State.gave; rw [h]

/-- A change that leaves the status words and what was sent. -/
theorem Grows.of_same {s s' : State} (h : s'.evt = s.evt) (k : s'.out = s.out) : Grows s s' :=
  ⟨fun n f => (told_of_evt h n f).2, fun o => (gave_of_out k o).2⟩

theorem grows_emit (s : State) (o : Out) : Grows s (s.emit o) :=
  ⟨fun n f => (told_of_evt rfl n f).2, fun _ h => List.mem_cons_of_mem _ h⟩
theorem gave_emit (s : State) (o : Out) : (s.emit o).gave o := List.mem_cons_self
theorem grows_emits (s : State) (l : List Out) : Grows s (s.emits l) :=
  ⟨fun n f => (told_of_evt rfl n f).2, fun _ h => List.mem_append_right _ h⟩
theorem gave_emits (s : State) {l : List Out} {o : Out} (h : o ∈ l) : (s.emits l).gave o :=
  List.mem_append_left _ (List.mem_reverse.2 h)
theorem grows_count (s : State) (n k : Nat) : Grows s (s.count n k) := .of_same rfl rfl
theorem grows_countW (s : State) (n k : Nat) : Grows s (s.countW n k) := .of_same rfl rfl

theorem grows_cnt (s : State) (c : Counters) : Grows s { s with cnt := c } := .of_same rfl rfl
theorem grows_dom (s : State) (d : Domain) : Grows s { s with dom := d } := .of_same rfl rfl
theorem grows_pair (s : State) (p : Pairing) : Grows s { s with pair := p } := .of_same rfl rfl
theorem grows_host (s : State) (h : HostIf) : Grows s { s with host := h } := .of_same rfl rfl
theorem grows_setRing (s : State) (r : Nat) (g : Ring) : Grows s (s.setRing r g) := .of_same rfl rfl

theorem grows_fold {α : Type} (f : State → α → State) (h : ∀ s a, Grows s (f s a)) (l : List α) (s : State) :
    Grows s (l.foldl f s) := by
  induction l generalizing s with
  | nil => exact .refl s
  | cons a r ih => exact (h s a).trans (ih _)

@[simp] theorem source_setSource_same (s : State) (n : Nat) (e : EventSource) : (s.setSource n e).source n = e :=
  tget_tset_same ..
theorem source_setSource_other (s : State) {n m : Nat} (e : EventSource) (h : m ≠ n) :
    (s.setSource n e).source m = s.source m := tget_tset_other _ _ _ _ _ h

/-- A source is written with what it told and perhaps more. -/
theorem grows_setSource (s : State) (n : Nat) (e : EventSource) (hp : (s.source n).pend = true → e.pend = true)
    (hf : (s.source n).flags &&& e.flags = (s.source n).flags) : Grows s (s.setSource n e) := by
  refine ⟨fun m f h => ?_, fun o h => h⟩
  by_cases hm : m = n
  · subst hm
    unfold State.told at *
    rw [source_setSource_same]
    refine ⟨hp h.1, ?_⟩
    have h2 := h.2
    apply BitVec.eq_of_getLsbD_eq
    intro i hi
    have a := congrArg (fun x => x.getLsbD i) h2
    have b := congrArg (fun x => x.getLsbD i) hf
    simp only [BitVec.getLsbD_and] at a b ⊢
    revert a b
    cases (s.source m).flags.getLsbD i <;> cases e.flags.getLsbD i <;> simp
  · unfold State.told at *
    rw [source_setSource_other s e hm]; exact h

/-- A raiser that loses nothing told or sent. -/
def Adds (raise : Raiser) : Prop := ∀ n f c s, Grows s (raise n f c s)

theorem grows_msix (s : State) (d : Bool) (v : Nat) : Grows s (s.msix d v) := by
  unfold State.msix; split
  · exact grows_host ..
  · exact grows_emit ..

theorem grows_queueWire (s : State) (p : Nat) (f : WireFrame) : Grows s (s.queueWire p f) := .of_same rfl rfl

theorem grows_pouvexOn (s : State) (p a b c : Nat) (l : List Byte) : Grows s (s.pouvexOn p a b c l) := by
  unfold State.pouvexOn
  split
  · exact .refl s
  · exact grows_fold _ (fun s a => grows_queueWire ..) _ s

theorem grows_pouvexSend (s : State) (a b : Nat) (l : List Byte) : Grows s (s.pouvexSend a b l) := by
  unfold State.pouvexSend; split
  · exact .refl s
  · exact (grows_dom s _).trans ((grows_pouvexOn _ 0 a b s.dom.seq.toNat l).trans (grows_pouvexOn ..))

theorem grows_forwardNow (s : State) (n : Nat) (q : BitVec 16) (l : List Byte) : Grows s (s.forwardNow n q l) := by
  unfold State.forwardNow
  dsimp only
  split
  · exact (grows_dom s _).trans ((grows_pouvexSend ..).trans (grows_count ..))
  · exact grows_dom s _

theorem grows_forward (s : State) (n : Nat) (e : EventSource) : Grows s (s.forward n e) := by
  unfold State.forward
  split
  · dsimp only
    split
    · exact grows_forwardNow ..
    · exact grows_dom ..
  · exact .refl s

theorem grows_ringComplete {raise : Raiser} (h : Adds raise) (r : Nat) (s : State) : Grows s (ringComplete raise r s) := by
  unfold ringComplete
  dsimp only
  split
  · exact (grows_setRing s r _).trans (h ..)
  · exact grows_setRing ..

theorem grows_logWrite {raise : Raiser} (h : Adds raise) (r : Nat) (rec : List Byte) (s : State) :
    Grows s (logWrite raise r rec s).2 := by
  unfold logWrite
  dsimp only
  split
  · refine Grows.trans ?_ (grows_ringComplete h r _)
    exact (grows_emit s _).trans ((grows_setRing ..).trans (grows_count ..))
  · exact (grows_count ..).trans (h ..)

theorem grows_advanceEffects {raise : Raiser} (h : Adds raise) (d : Bool) (n : Nat) (s : State) :
    Grows s (advanceEffects raise d n s) := by
  unfold advanceEffects
  extract_lets e rt s1 s2 s3
  have h1 : Grows s s1 := by
    unfold s1; split
    · exact grows_msix ..
    · exact .refl s
  have h2 : Grows s s2 := h1.trans (grows_fold _ (fun s a => grows_emit ..) _ _)
  refine Grows.trans ?_ (grows_forward ..)
  unfold s3
  split
  · split
    rename_i ok s4 heq
    have h4 : Grows s s4 := by
      rw [show s4 = (logWrite raise 35 (eventRecord s2.node n e.word e.time.toNat e.capture) s2).2 from
        (congrArg Prod.snd heq).symm]
      exact h2.trans (grows_logWrite h ..)
    split <;> exact h4.trans (grows_count ..)
  · exact h2

theorem flags_or (a b : BitVec 15) : a &&& (a ||| b) = a := by
  apply BitVec.eq_of_getLsbD_eq
  intro i hi
  simp only [BitVec.getLsbD_and, BitVec.getLsbD_or]
  cases a.getLsbD i <;> simp
theorem flags_or' (a b : BitVec 15) : (a ||| b) &&& b = b := by
  rw [BitVec.and_comm, BitVec.or_comm]; exact flags_or b a
theorem flags_or_or (a b c : BitVec 15) : a &&& (a ||| b ||| c) = a := by rw [BitVec.or_assoc]; exact flags_or a _

theorem grows_seqAdvance {raise : Raiser} (h : Adds raise) (d : Bool) (n f a : Nat) (s : State) :
    Grows s (seqAdvance raise d n f a s) := by
  unfold seqAdvance
  dsimp only
  exact (grows_setSource s n _ (fun _ => rfl) (flags_or ..)).trans (grows_advanceEffects h ..)

theorem told_seqAdvance {raise : Raiser} (h : Adds raise) (d : Bool) (n f a : Nat) (s : State) :
    (seqAdvance raise d n f a s).told n f := by
  unfold seqAdvance
  dsimp only
  refine (grows_advanceEffects h d n _).1 n f ?_
  unfold State.told
  rw [source_setSource_same]
  exact ⟨rfl, flags_or' ..⟩

theorem grows_closeHoldOff {raise : Raiser} (h : Adds raise) (d : Bool) (n : Nat) (s : State) :
    Grows s (closeHoldOff raise d n s) := by
  unfold closeHoldOff
  dsimp only
  split
  · split
    · exact grows_seqAdvance h ..
    · exact .refl s
  · exact .refl s

/-- Dating an event, and giving back the flags that a clearing write of the same clock took. -/
theorem grows_date (s : State) (n : Nat) (b : BitVec 15) (a : Option Nat) (t : BitVec 64) (c : List Byte) :
    Grows s (s.setSource n { s.source n with
      flags := (s.source n).flags ||| b, cleared := none, eventAt := a, time := t, capture := c }) :=
  grows_setSource s n _ (fun x => x) (flags_or ..)

theorem raiseWith_both {raise : Raiser} (h : Adds raise) (d : Bool) (n f : Nat) (c : List Byte) (s : State) :
    Grows s (raiseWith raise d n f c s) ∧ (raiseWith raise d n f c s).told n f := by
  unfold raiseWith
  extract_lets s1 c1 s2 src e inHold
  have h2 : Grows s s2 := by
    refine (grows_closeHoldOff h d n s).trans ?_
    unfold s2; split
    · exact .of_same rfl rfl
    · exact .refl _
  split
  · refine ⟨h2.trans (grows_setSource s2 n _ (fun _ => rfl) (flags_or_or ..)), ?_⟩
    unfold State.told
    rw [source_setSource_same]
    exact ⟨rfl, flags_or' ..⟩
  · have h3 : Grows s2 (s2.setSource n e) := grows_date s2 n _ _ (BitVec.ofNat 64 s2.ns0) c
    have h4 := grows_seqAdvance h d n f s2.now (s2.setSource n e)
    have h5 := told_seqAdvance h d n f s2.now (s2.setSource n e)
    clear_value e s2
    exact ⟨h2.trans (h3.trans h4), h5⟩

theorem adds_raiseN : ∀ k d, Adds (raiseN k d)
  | 0, _ => fun _ _ _ s => .refl s
  | k + 1, d => fun n f c s => (raiseWith_both (adds_raiseN k d) d n f c s).1

/-- Raising an event loses nothing told or sent. -/
theorem grows_raise (s : State) (n f : Nat) (c : List Byte) : Grows s (s.raise n f c) := adds_raiseN 4 s.dormant n f c s
/-- An event raised is told. -/
theorem told_raise (s : State) (n f : Nat) (c : List Byte) : (s.raise n f c).told n f :=
  (raiseWith_both (adds_raiseN 3 s.dormant) s.dormant n f c s).2

theorem grows_complete (s : State) (r : Nat) : Grows s (s.complete r) := grows_ringComplete (adds_raiseN 4 _) r s
theorem grows_log (s : State) (r : Nat) (rec : List Byte) : Grows s (s.log r rec).2 := grows_logWrite (adds_raiseN 4 _) r rec s

theorem grows_memEvent (s : State) (m : Nat) (u b : Bool) (c : List Byte) : Grows s (s.memEvent m u b c) :=
  (grows_count ..).trans (grows_raise ..)

theorem grows_cut (s : State) (f d : Bool) : Grows s (s.cut f d) := grows_cnt ..

theorem grows_takeFreeze (s : State) : Grows s s.takeFreeze := by
  unfold State.takeFreeze
  dsimp only
  split
  · exact (grows_count ..).trans ((grows_cut ..).trans (grows_cnt ..))
  · split
    · split
      · exact grows_cut ..
      · exact .refl s
    · exact .refl s

theorem grows_wireOut (p : Nat) (s : State) (f : WireFrame) : Grows s (s.wireOut p f) := by
  unfold State.wireOut
  split <;> exact (grows_emit s _).trans (grows_count ..)

theorem grows_sendWire (n : Nat) (s : State) (p : Nat) : Grows s (s.sendWire n p) := by
  unfold State.sendWire
  dsimp only
  split
  · exact .refl s
  · refine Grows.trans ?_ (grows_fold _ (grows_wireOut p) _ _)
    exact .of_same rfl rfl

theorem grows_sendWires (s : State) (n : Nat) : Grows s (s.sendWires n) := grows_fold _ (grows_sendWire n) _ s

/-- What a port sends was waiting, in its order, and the rest waits on (13 R342). -/
theorem wire_send (from_ now n : Nat) (w : Wire) : (w.send from_ now n).1 ++ (w.send from_ now n).2.waiting = w.waiting := by
  induction n generalizing w with
  | zero => rfl
  | succ n ih =>
    unfold Wire.send
    split
    · simp [*]
    · rename_i f rest h
      dsimp only
      split
      · simp
      · rw [h, List.cons_append, ih]

theorem grows_settle (s : State) : Grows s s.settle := by
  unfold State.settle
  extract_lets sat c1 s1 s2 lost p1 s3 s4 s5
  refine Grows.trans ?_ (grows_sendWires ..)
  have h2 : Grows s s2 := (grows_cnt s c1).trans (grows_fold _ (fun s a => grows_raise ..) _ s1)
  have h3 : Grows s s3 := h2.trans (grows_pair s2 p1)
  have h4 : Grows s s4 := by
    unfold s4; split
    · exact h3.trans (grows_raise ..)
    · exact h3
  exact h4.trans (grows_takeFreeze s4)

theorem grows_markIdle (s : State) : Grows s s.markIdle := by
  unfold State.markIdle
  refine grows_fold _ (fun s a => ?_) _ s
  dsimp only
  split <;> split <;> exact .refl s

/-- What a command's effect told and sent stands after the command. -/
theorem grows_end (s : State) : Grows s s.settle.markIdle := (grows_settle s).trans (grows_markIdle _)

end Sys2Proof.Machine
end

