-- ==== Sys2Proof/Laws/Run.lean ====
section
/-! SUPPORT. How a command runs: what the time before it leaves as it is, and what its runner makes of its effect. -/
namespace Sys2Proof.Machine

/-! ### The time before a command -/

theorem still_of_body {s s' : State} (h : s'.body = s.body) : s'.still = s.still :=
  congrArg (fun b : State => { b with now := 0, egress := [], proc := {}, mbox := {}, pow := { b.pow with slices := [] } }) h

@[simp] theorem still_setEgr (s : State) (p : Nat) (e : Egress) : (s.setEgr p e).still = s.still := rfl
@[simp] theorem still_advance (s : State) (t : Nat) : (s.advance t).still = s.still := rfl
@[simp] theorem still_setChan (s : State) (c : Nat) (h : Channel) : (s.setChan c h).still = s.still := rfl
@[simp] theorem still_setCore (s : State) (n : Nat) (c : Core) : (s.setCore n c).still = s.still := rfl
@[simp] theorem still_setGroup (s : State) (n : Nat) (c : ProcGroup) : (s.setGroup n c).still = s.still := rfl
@[simp] theorem still_raise (s : State) (n f : Nat) (c : List Byte) : (s.raise n f c).still = s.still :=
  still_of_body (body_raise ..)
@[simp] theorem still_count (s : State) (n k : Nat) : (s.count n k).still = s.still := rfl
@[simp] theorem still_uncount (s : State) (n : Nat) : (s.uncount n).still = s.still := rfl
@[simp] theorem still_emit (s : State) (o : Out) : (s.emit o).still = s.still := rfl

theorem still_fold {α : Type} (f : State → α → State) (h : ∀ s a, (f s a).still = s.still) (l : List α) (s : State) :
    (l.foldl f s).still = s.still := by
  induction l generalizing s with
  | nil => rfl
  | cons a r ih => rw [List.foldl_cons, ih, h]

@[simp] theorem still_settleShapers (s : State) (t : Nat) : (s.settleShapers t).still = s.still := by
  unfold State.settleShapers
  refine still_fold _ ?_ _ s; intro s a; rfl

@[simp] theorem still_settleSlices (s : State) : s.settleSlices.still = s.still := by
  unfold State.settleSlices
  exact still_fold _ (fun s a => by dsimp only; split <;> rfl) _ s

@[simp] theorem still_sendWires (s : State) (n : Nat) : (s.sendWires n).still = s.still :=
  still_of_body (body_sendWires ..)

@[simp] theorem still_recross (s : State) (c : Nat) : (s.recross c).still = s.still := by
  unfold State.recross
  split
  · rfl
  · dsimp only; split <;> rfl

@[simp] theorem still_mbNotify (s : State) (c n : Nat) : (s.mbNotify c n).still = s.still := by
  unfold State.mbNotify
  split
  · split <;> rfl
  · rfl

@[simp] theorem still_mbSender (s : State) (c f : Nat) : (s.mbSender c f).still = s.still := by
  unfold State.mbSender; simp
@[simp] theorem still_mbReceiver (s : State) (c f : Nat) : (s.mbReceiver c f).still = s.still := by
  unfold State.mbReceiver; simp

@[simp] theorem still_mbResetReceiver (s : State) (c : Nat) : (s.mbResetReceiver c).still = s.still := by
  unfold State.mbResetReceiver
  extract_lets h acks s1 s2 s3 s4
  have h4 : s4.still = s.still := by simp [s4, s3, s2, s1]
  split
  · exact h4
  · rw [still_mbNotify, h4]

@[simp] theorem still_mbResetSender (s : State) (c : Nat) : (s.mbResetSender c).still = s.still := by
  unfold State.mbResetSender
  extract_lets h made gone orphans found s1 s2
  rw [still_mbReceiver, still_count, still_recross]
  exact (still_fold _ (fun s a => still_uncount ..) _ s1).trans (still_setChan ..)

@[simp] theorem still_mbGroupReset (s : State) (g : Nat) : (s.mbGroupReset g).still = s.still := by
  unfold State.mbGroupReset
  extract_lets code mine s1
  rw [still_fold _ (fun s a => still_mbResetReceiver s a)]
  exact still_fold _ (fun s a => still_mbResetSender s a) _ s

@[simp] theorem still_toGroupState (s : State) (g : Nat) (p : ProcState) : (s.toGroupState g p).still = s.still := by
  unfold State.toGroupState
  extract_lets old s1 p1 s3 s2
  have h2 : s2.still = s.still := by
    unfold s2; split
    · have h3 : s3.still = s.still := by unfold s3; split <;> rfl
      rw [still_fold _ (fun s a => still_setCore ..), h3]
    · rfl
  split
  · rw [still_mbGroupReset, h2]
  · exact h2

@[simp] theorem still_groupCommand (s : State) (g c : Nat) : (s.groupCommand g c).still = s.still := by
  unfold State.groupCommand
  extract_lets st
  split
  · split <;> simp
  · split
    · rfl
    · split
      · split <;> simp
      · rw [still_toGroupState, still_toGroupState]
        refine still_fold _ ?_ _ s; intro s a; rfl

@[simp] theorem still_dueCommands (s : State) : s.dueCommands.still = s.still := by
  unfold State.dueCommands
  extract_lets due p1 s1
  refine still_fold _ (fun s a => ?_) _ s1
  exact still_groupCommand { s with now := a.at_ } ..

/-- Time alone changes nothing but reports, the shapers, and what the group commands that fall due do. -/
@[simp] theorem still_enter (s : State) (t : Nat) : (s.enter t).still = s.still := by
  unfold State.enter; simp

/-! #### The parts that time alone leaves as they are -/

theorem enter_part {α : Type} (f : State → α) (hf : ∀ s : State, f s.still = f s) (s : State) (t : Nat) :
    f (s.enter t) = f s := by rw [← hf, still_enter, hf]

@[simp] theorem enter_nv (s : State) (t : Nat) : (s.enter t).nv = s.nv := enter_part State.nv (fun _ => rfl) s t
@[simp] theorem enter_ao (s : State) (t : Nat) : (s.enter t).ao = s.ao := enter_part State.ao (fun _ => rfl) s t
@[simp] theorem enter_draw (s : State) (t : Nat) : (s.enter t).draw = s.draw := enter_part State.draw (fun _ => rfl) s t
@[simp] theorem enter_dict (s : State) (t : Nat) : (s.enter t).dict = s.dict := enter_part State.dict (fun _ => rfl) s t
@[simp] theorem enter_route (s : State) (t : Nat) : (s.enter t).route = s.route := enter_part State.route (fun _ => rfl) s t
@[simp] theorem enter_acc (s : State) (t : Nat) : (s.enter t).acc = s.acc := enter_part State.acc (fun _ => rfl) s t
@[simp] theorem enter_ports (s : State) (t : Nat) : (s.enter t).ports = s.ports := enter_part State.ports (fun _ => rfl) s t
@[simp] theorem enter_rules (s : State) (t : Nat) : (s.enter t).rules = s.rules := enter_part State.rules (fun _ => rfl) s t
@[simp] theorem enter_fdb (s : State) (t : Nat) : (s.enter t).fdb = s.fdb := enter_part State.fdb (fun _ => rfl) s t
@[simp] theorem enter_flow (s : State) (t : Nat) : (s.enter t).flow = s.flow := enter_part State.flow (fun _ => rfl) s t
@[simp] theorem enter_buf (s : State) (t : Nat) : (s.enter t).buf = s.buf := enter_part State.buf (fun _ => rfl) s t
@[simp] theorem enter_queues (s : State) (t : Nat) : (s.enter t).queues = s.queues := enter_part State.queues (fun _ => rfl) s t
@[simp] theorem enter_rounds (s : State) (t : Nat) : (s.enter t).rounds = s.rounds := enter_part State.rounds (fun _ => rfl) s t
@[simp] theorem enter_red (s : State) (t : Nat) : (s.enter t).red = s.red := enter_part State.red (fun _ => rfl) s t
@[simp] theorem enter_split (s : State) (t : Nat) : (s.enter t).split = s.split := enter_part State.split (fun _ => rfl) s t
@[simp] theorem enter_captured0 (s : State) (t : Nat) : (s.enter t).captured0 = s.captured0 :=
  enter_part State.captured0 (fun _ => rfl) s t
@[simp] theorem enter_captured1 (s : State) (t : Nat) : (s.enter t).captured1 = s.captured1 :=
  enter_part State.captured1 (fun _ => rfl) s t
@[simp] theorem enter_boot (s : State) (t : Nat) : (s.enter t).boot = s.boot := enter_part State.boot (fun _ => rfl) s t
@[simp] theorem enter_panel (s : State) (t : Nat) : (s.enter t).panel = s.panel := enter_part State.panel (fun _ => rfl) s t
@[simp] theorem enter_clock0 (s : State) (t : Nat) : (s.enter t).clock0 = s.clock0 := enter_part State.clock0 (fun _ => rfl) s t
@[simp] theorem enter_clock1 (s : State) (t : Nat) : (s.enter t).clock1 = s.clock1 := enter_part State.clock1 (fun _ => rfl) s t
@[simp] theorem enter_pending (s : State) (t : Nat) : (s.enter t).pending = s.pending :=
  enter_part State.pending (fun _ => rfl) s t
@[simp] theorem enter_powState (s : State) (t : Nat) : (s.enter t).pow.state = s.pow.state :=
  enter_part (fun s => s.pow.state) (fun _ => rfl) s t
@[simp] theorem enter_unlocked (s : State) (t : Nat) : (s.enter t).pow.unlocked = s.pow.unlocked :=
  enter_part (fun s => s.pow.unlocked) (fun _ => rfl) s t
@[simp] theorem enter_dormant (s : State) (t : Nat) : (s.enter t).dormant = s.dormant := by
  simp [State.dormant]
@[simp] theorem enter_locked (s : State) (t : Nat) (p : Pll) : (s.enter t).locked p = s.locked p := by
  simp [State.locked]
@[simp] theorem enter_active (s : State) (t : Nat) : (s.enter t).active = s.active := by simp [State.active]
@[simp] theorem enter_num (s : State) (t i u : Nat) : (s.enter t).num i u = s.num i u := by simp [State.num]
@[simp] theorem enter_blk (s : State) (t i u o n : Nat) : (s.enter t).blk i u o n = s.blk i u o n := by simp [State.blk]

/-! #### The instant -/

theorem now_fold {α : Type} (f : State → α → State) (h : ∀ s a, (f s a).now = s.now) (l : List α) (s : State) :
    (l.foldl f s).now = s.now := by
  induction l generalizing s with
  | nil => rfl
  | cons a r ih => rw [List.foldl_cons, ih, h]

theorem now_of_body {s s' : State} (h : s'.body = s.body) : s'.now = s.now :=
  show s'.body.now = s.body.now by rw [h]

@[simp] theorem now_mbSender (s : State) (c f : Nat) : (s.mbSender c f).now = s.now := now_of_body (body_raise ..)
@[simp] theorem now_mbReceiver (s : State) (c f : Nat) : (s.mbReceiver c f).now = s.now := now_of_body (body_raise ..)
@[simp] theorem now_recross (s : State) (c : Nat) : (s.recross c).now = s.now := by
  unfold State.recross
  split
  · rfl
  · dsimp only; split <;> rfl
@[simp] theorem now_mbNotify (s : State) (c n : Nat) : (s.mbNotify c n).now = s.now := by
  unfold State.mbNotify
  split
  · split <;> rfl
  · rfl
@[simp] theorem now_mbResetReceiver (s : State) (c : Nat) : (s.mbResetReceiver c).now = s.now := by
  unfold State.mbResetReceiver
  extract_lets h acks s1 s2 s3 s4
  have h2 : s2.now = s.now := now_recross s1 c
  have h4 : s4.now = s.now := (now_mbSender ..).trans h2
  split
  · exact h4
  · rw [now_mbNotify, h4]
@[simp] theorem now_mbResetSender (s : State) (c : Nat) : (s.mbResetSender c).now = s.now := by
  unfold State.mbResetSender
  extract_lets h made gone orphans found s1 s2
  have h2 : s2.now = s.now := now_fold (fun (s : State) _ => s.uncount _) (fun s a => rfl) _ s1
  exact (now_mbReceiver ..).trans ((now_recross s2 c).trans h2)
@[simp] theorem now_mbGroupReset (s : State) (g : Nat) : (s.mbGroupReset g).now = s.now := by
  unfold State.mbGroupReset
  extract_lets code mine s1
  rw [now_fold _ (fun s a => now_mbResetReceiver s a)]
  exact now_fold _ (fun s a => now_mbResetSender s a) _ s
@[simp] theorem now_toGroupState (s : State) (g : Nat) (p : ProcState) : (s.toGroupState g p).now = s.now := by
  unfold State.toGroupState
  extract_lets old s1 p1 s3 s2
  have h2 : s2.now = s.now := by
    unfold s2; split
    · have h3 : s3.now = s.now := by unfold s3; split <;> rfl
      exact (now_fold (fun (s : State) n => s.setCore n _) (fun s a => rfl) _ s3).trans h3
    · rfl
  split
  · rw [now_mbGroupReset, h2]
  · exact h2
@[simp] theorem now_groupCommand (s : State) (g c : Nat) : (s.groupCommand g c).now = s.now := by
  unfold State.groupCommand
  extract_lets st
  split
  · split <;> simp
  · split
    · rfl
    · split
      · split <;> simp
      · rw [now_toGroupState, now_toGroupState]
        refine now_fold _ ?_ _ s; intro s a; rfl
@[simp] theorem enter_now (s : State) (t : Nat) : (s.enter t).now = max s.now t := by
  unfold State.enter
  have h1 : ∀ s : State, s.dueCommands.now = s.now := by
    intro s
    unfold State.dueCommands
    extract_lets due p1 s1
    refine now_fold _ ?_ _ s1; intro s a; rfl
  have h2 : ∀ s : State, s.settleSlices.now = s.now := by
    intro s
    unfold State.settleSlices
    exact now_fold _ (fun s a => by dsimp only; split <;> rfl) _ s
  have h3 : (s.settleShapers (max s.now t)).now = s.now := by
    unfold State.settleShapers
    refine now_fold _ ?_ _ s; intro s a; rfl
  have h4 : ∀ s : State, (s.sendWires 0).now = s.now := fun s => by
    have h := congrArg State.now (body_sendWires s 0)
    exact h
  rw [h1, h4, h2]
  simp only [State.advance, h3]

/-! ### Runners -/

theorem not_due {s : State} {t : Nat} (h : s.upAt t) : (s.enter t).resetDue = false := by
  unfold State.resetDue
  rw [enter_boot, enter_ao, h.1, Bool.false_or]
  split
  · rename_i a ha
    have := h.2 a ha
    simp only [enter_now, decide_eq_false_iff_not]
    omega
  · rfl

theorem State.acts.up {s : State} {t : Nat} (h : s.acts t) : s.upAt t := h.2

/-- A command that acts: its effect on the state at its instant, then what its end settles. -/
theorem go_acts {s : State} {t : Nat} (f : State → State) (awake : State → Bool) (ha : awake (s.enter t) = true)
    (h : s.upAt t) : s.go t awake f = (f (s.enter t)).settle.markIdle := by
  unfold State.go
  simp [ha, not_due h]

end Sys2Proof.Machine
end

