-- ==== Sys2Proof/Laws/Calm.lean ====
section
/-! SUPPORT. A command in a calm state: the time before it and its end leave the status words, what was sent, and the snapshot's
control as they are. -/
namespace Sys2Proof.Machine

/-- The control of the counters, apart from their values. -/
def Counters.control (c : Counters) : Counters := { c with vals := [] }

theorem control_saturated (c : Counters) : c.control.saturated = c.saturated := rfl
theorem control_triggered (c : Counters) : c.control.triggered = c.triggered := rfl
theorem control_armed (c : Counters) : c.control.armed = c.armed := rfl
theorem control_grip (c : Counters) : c.control.grip = c.grip := rfl
theorem control_phase (c : Counters) : c.control.phase = c.phase := rfl

theorem cnt_same (s : State) (c : Counters) (h : c = s.cnt) : ({ s with cnt := c } : State) = s := by rw [h]
theorem pair_same (s : State) (p : Pairing) (h : p = s.pair) : ({ s with pair := p } : State) = s := by rw [h]
theorem counters_same (c : Counters) (h : c.saturated = []) : ({ c with saturated := [] } : Counters) = c := by
  rw [← h]
theorem pairing_same (p : Pairing) (h : p.lost = false) : ({ p with lost := false } : Pairing) = p := by
  rw [← h]

/-- Nothing waits on a marshal port. -/
def State.wiresIdle (s : State) : Prop := (s.wire 0).waiting = [] ∧ (s.wire 1).waiting = []

theorem sendWire_idle {s : State} (n p : Nat) (h : (s.wire p).waiting = []) : s.sendWire n p = s := by
  unfold State.sendWire
  dsimp only
  rw [if_pos (by simp [h])]

theorem sendWires_idle {s : State} (n : Nat) (h : s.wiresIdle) : s.sendWires n = s := by
  unfold State.sendWires
  rw [List.foldl_cons, sendWire_idle n 0 h.1, List.foldl_cons, sendWire_idle n 1 h.2]; rfl

theorem takeFreeze_idle {s : State} (h : s.cnt.triggered = false) (g : s.cnt.grip = none) : s.takeFreeze = s := by
  unfold State.takeFreeze
  simp only [h, g]
  split
  · contradiction
  · split <;> rfl

/-- With nothing standing over, the end of a command settles nothing. -/
theorem settle_calm {s : State} (h1 : s.cnt.saturated = []) (h2 : s.pair.lost = false) (h3 : s.cnt.triggered = false)
    (h4 : s.wiresIdle) (h5 : s.cnt.grip = none) : s.settle = s := by
  unfold State.settle
  extract_lets sat c1 s1 s2 lost p1 s3 s4 s5
  have e1 : s1 = s := cnt_same s _ (counters_same _ h1)
  have e2 : s2 = s1 := by unfold s2; rw [show sat = [] from h1]; rfl
  have e3 : s3 = s := by
    have : s2 = s := e2.trans e1
    unfold s3 p1
    rw [this]
    exact pair_same s _ (pairing_same _ h2)
  have e4 : s4 = s := by
    have hl : lost = false := by unfold lost; rw [e2, e1]; exact h2
    unfold s4
    rw [if_neg (by simp [hl])]
    exact e3
  have e5 : s5 = s := by unfold s5; rw [e4, takeFreeze_idle h3 h5]
  rw [e5, sendWires_idle _ h4]

theorem part_fold {α β : Type} (g : State → β) (f : State → α → State) (h : ∀ s a, g (f s a) = g s) (l : List α)
    (s : State) : g (l.foldl f s) = g s := by
  induction l generalizing s with
  | nil => rfl
  | cons a r ih => rw [List.foldl_cons, ih, h]

theorem markIdle_part {β : Type} (g : State → β) (h : ∀ (s : State) i v, g (s.setSlice i v) = g s) (s : State) :
    g s.markIdle = g s := by
  unfold State.markIdle
  exact part_fold g _ (fun s a => by dsimp only; split <;> split <;> first | rfl | exact h ..) _ s

@[simp] theorem markIdle_evt (s : State) : s.markIdle.evt = s.evt := markIdle_part State.evt (fun _ _ _ => rfl) s
@[simp] theorem markIdle_out (s : State) : s.markIdle.out = s.out := markIdle_part State.out (fun _ _ _ => rfl) s
@[simp] theorem markIdle_cnt (s : State) : s.markIdle.cnt = s.cnt := markIdle_part State.cnt (fun _ _ _ => rfl) s
@[simp] theorem markIdle_dom (s : State) : s.markIdle.dom = s.dom := markIdle_part State.dom (fun _ _ _ => rfl) s
@[simp] theorem markIdle_host (s : State) : s.markIdle.host = s.host := markIdle_part State.host (fun _ _ _ => rfl) s

theorem dueCommands_none {s : State} (h : ∀ c ∈ s.proc.commands, s.now < c.at_) :
    s.dueCommands = { s with proc.commands := s.proc.commands.filter fun c => !decide (c.at_ ≤ s.now) } := by
  unfold State.dueCommands
  extract_lets due p1 s1
  have hd : due = [] := by
    unfold due
    rw [List.filter_eq_nil_iff]
    intro c hc
    have := h c hc
    simp only [decide_eq_true_eq]; omega
  rw [hd]; rfl

/-- What time alone leaves when no group command falls due. -/
theorem enter_part_calm {β : Type} (g : State → β) {s : State} {t : Nat}
    (h : (∀ c ∈ s.proc.commands, max s.now t < c.at_) ∧ s.wiresIdle)
    (h1 : ∀ (s : State) p e, g (s.setEgr p e) = g s) (h2 : ∀ (s : State) n, g (s.advance n) = g s)
    (h3 : ∀ (s : State) i v, g (s.setSlice i v) = g s)
    (h5 : ∀ (s : State) v, g ({ s with cnt.vals := v }) = g s)
    (h6 : ∀ (s : State) v, g ({ s with proc.commands := v }) = g s) : g (s.enter t) = g s := by
  unfold State.enter
  have a1 : ∀ s : State, g (s.settleShapers (max s.now t)) = g s := by
    intro s
    unfold State.settleShapers
    exact part_fold g _ (fun s a => h1 ..) _ s
  have a2 : ∀ s : State, g s.settleSlices = g s := by
    intro s
    unfold State.settleSlices
    refine part_fold g _ (fun s a => ?_) _ s
    dsimp only
    split
    · rfl
    · exact (h5 _ _).trans (h3 ..)
    · exact (h5 _ _).trans (h3 ..)
    · exact (h5 _ _).trans (h3 ..)
  have c1 : ∀ s : State, (s.settleShapers (max s.now t)).proc = s.proc := by
    intro s
    unfold State.settleShapers
    refine part_fold State.proc _ ?_ _ s
    intro s a; rfl
  have n1 : ∀ s : State, (s.settleShapers (max s.now t)).now = s.now := by
    intro s
    unfold State.settleShapers
    refine part_fold State.now _ ?_ _ s
    intro s a; rfl
  have c2 : ∀ s : State, s.settleSlices.proc = s.proc := by
    intro s
    unfold State.settleSlices
    exact part_fold State.proc _ (fun s a => by dsimp only; split <;> rfl) _ s
  have n2 : ∀ s : State, s.settleSlices.now = s.now := by
    intro s
    unfold State.settleSlices
    exact part_fold State.now _ (fun s a => by dsimp only; split <;> rfl) _ s
  have w1 : ∀ s : State, (s.settleShapers (max s.now t)).wires = s.wires := by
    intro s
    unfold State.settleShapers
    refine part_fold State.wires _ ?_ _ s
    intro s a; rfl
  have w2 : ∀ s : State, s.settleSlices.wires = s.wires := by
    intro s
    unfold State.settleSlices
    exact part_fold State.wires _ (fun s a => by dsimp only; split <;> rfl) _ s
  have hw : ((s.settleShapers (max s.now t)).advance t).settleSlices.wires = s.wires := by
    rw [w2]; exact w1 s
  have hi : ((s.settleShapers (max s.now t)).advance t).settleSlices.wiresIdle := by
    unfold State.wiresIdle State.wire
    rw [hw]; exact h.2
  have hp : ((s.settleShapers (max s.now t)).advance t).settleSlices.proc = s.proc := by
    rw [c2]; exact c1 s
  have hn : ((s.settleShapers (max s.now t)).advance t).settleSlices.now = max s.now t := by
    rw [n2]; show max (s.settleShapers (max s.now t)).now t = _; rw [n1]
  rw [sendWires_idle _ hi, dueCommands_none (by rw [hp, hn]; exact h.1), h6, a2, h2, a1]

theorem enter_evt {s : State} {t : Nat} (h : s.calm t) : (s.enter t).evt = s.evt :=
  enter_part_calm State.evt h.2.2.2.2 (fun _ _ _ => rfl) (fun _ _ => rfl) (fun _ _ _ => rfl) (fun _ _ => rfl)
    (fun _ _ => rfl)
theorem enter_out {s : State} {t : Nat} (h : s.calm t) : (s.enter t).out = s.out :=
  enter_part_calm State.out h.2.2.2.2 (fun _ _ _ => rfl) (fun _ _ => rfl) (fun _ _ _ => rfl) (fun _ _ => rfl)
    (fun _ _ => rfl)
theorem enter_control {s : State} {t : Nat} (h : s.calm t) : (s.enter t).cnt.control = s.cnt.control :=
  enter_part_calm (fun s => s.cnt.control) h.2.2.2.2 (fun _ _ _ => rfl) (fun _ _ => rfl) (fun _ _ _ => rfl)
    (fun _ _ => rfl) (fun _ _ => rfl)
theorem enter_pair {s : State} {t : Nat} (h : s.calm t) : (s.enter t).pair = s.pair :=
  enter_part_calm State.pair h.2.2.2.2 (fun _ _ _ => rfl) (fun _ _ => rfl) (fun _ _ _ => rfl) (fun _ _ => rfl)
    (fun _ _ => rfl)
theorem enter_dom {s : State} {t : Nat} (h : s.calm t) : (s.enter t).dom = s.dom :=
  enter_part_calm State.dom h.2.2.2.2 (fun _ _ _ => rfl) (fun _ _ => rfl) (fun _ _ _ => rfl) (fun _ _ => rfl)
    (fun _ _ => rfl)
theorem enter_host {s : State} {t : Nat} (h : s.calm t) : (s.enter t).host = s.host :=
  enter_part_calm State.host h.2.2.2.2 (fun _ _ _ => rfl) (fun _ _ => rfl) (fun _ _ _ => rfl) (fun _ _ => rfl)
    (fun _ _ => rfl)
theorem enter_wires {s : State} {t : Nat} (h : s.calm t) : (s.enter t).wiresIdle := by
  have e : (s.enter t).wires = s.wires := enter_part_calm State.wires h.2.2.2.2 (fun _ _ _ => rfl) (fun _ _ => rfl)
    (fun _ _ _ => rfl) (fun _ _ => rfl) (fun _ _ => rfl)
  unfold State.wiresIdle State.wire
  rw [e]; exact h.2.2.2.2.2
theorem enter_source {s : State} {t : Nat} (h : s.calm t) (n : Nat) : (s.enter t).source n = s.source n := by
  unfold State.source; rw [enter_evt h]

/-- Time alone leaves a calm state with nothing standing over. -/
theorem enter_settled {s : State} {t : Nat} (h : s.calm t) :
    (s.enter t).cnt.saturated = [] ∧ (s.enter t).pair.lost = false ∧ (s.enter t).cnt.triggered = false
      ∧ (s.enter t).wiresIdle ∧ (s.enter t).cnt.grip = none := by
  have hc := enter_control h
  refine ⟨?_, ?_, ?_, enter_wires h, ?_⟩
  · rw [← control_saturated, hc, control_saturated]; exact h.1
  · rw [enter_pair h]; exact h.2.2.2.1
  · rw [← control_triggered, hc, control_triggered]; exact h.2.2.1
  · rw [← control_grip, hc, control_grip]; exact h.2.1.2

/-- What a command leaves when its effect leaves nothing standing over: the reports are those of its effect. -/
def Exact (x s' : State) : Prop :=
  s'.evt = x.evt ∧ s'.out = x.out ∧ s'.cnt = x.cnt ∧ s'.dom = x.dom ∧ s'.host = x.host

end Sys2Proof.Machine
end

