-- ==== Sys2Proof/Laws/Unreported.lean ====
section
/-! SUPPORT. What reporting cannot touch: any part of the state that the status words, what was sent, the counters of reporting,
the forwarding of events, the pending interrupts and log ring 35 leave alone is left alone by raising events, by the end of a
command, and so by a runner. -/
namespace Sys2Proof.Machine

/-- A part of the state that no report touches. -/
structure Unreported {β : Type} (g : State → β) : Prop where
  evt : ∀ s e, g { s with evt := e } = g s
  out : ∀ s o, g { s with out := o } = g s
  vals : ∀ s n v w, n ∈ reportCounters → g { s with cnt := { s.cnt with vals := tset 0 s.cnt.vals n v, saturated := w } } = g s
  trig : ∀ s, g { s with cnt.triggered := true } = g s
  dom : ∀ s q f, g { s with dom := { s.dom with seq := q, forwards := f } } = g s
  msix : ∀ s m, g { s with host.msixPending := m } = g s
  ring : ∀ s r, g (s.setRing 35 r) = g s
  wires : ∀ s w, g { s with wires := w } = g s

/-- A part of the state that neither a report nor the end of a command touches. -/
structure Unsettled {β : Type} (g : State → β) : Prop extends Unreported g where
  cut : ∀ s f d, g (s.cut f d) = g s
  overrun : ∀ s b, g { s with cnt.overrun := b } = g s
  sat : ∀ s v, g { s with cnt.saturated := v } = g s
  lost : ∀ s b, g { s with pair.lost := b } = g s
  slice : ∀ s i v, g (s.setSlice i v) = g s

variable {β : Type} {g : State → β}

theorem Unreported.emit (u : Unreported g) (s : State) (o : Out) : g (s.emit o) = g s := u.out ..
theorem Unreported.count (u : Unreported g) (s : State) {n : Nat} (h : n ∈ reportCounters) (k : Nat) :
    g (s.count n k) = g s := u.vals s n _ _ h
theorem Unreported.setSource (u : Unreported g) (s : State) (n : Nat) (e : EventSource) : g (s.setSource n e) = g s := u.evt ..
theorem Unreported.seq (u : Unreported g) (s : State) (q : BitVec 16) : g { s with dom.seq := q } = g s :=
  u.dom s q s.dom.forwards
theorem Unreported.forwards (u : Unreported g) (s : State) (f : Tab Forward) : g { s with dom.forwards := f } = g s :=
  u.dom s s.dom.seq f

theorem Unreported.setMsix (u : Unreported g) (s : State) (d : Bool) (v : Nat) : g (s.msix d v) = g s := by
  unfold State.msix; split
  · exact u.msix ..
  · exact u.emit ..

theorem Unreported.pouvexOn (u : Unreported g) (s : State) (p a b c : Nat) (l : List Byte) :
    g (s.pouvexOn p a b c l) = g s := by
  unfold State.pouvexOn
  split
  · rfl
  · exact part_fold g _ (fun s a => u.wires ..) _ s

theorem Unreported.sendWires (u : Unreported g) (s : State) (n : Nat) : g (s.sendWires n) = g s := by
  have one (p : Nat) (h1 : Num.pouvexSent p ∈ reportCounters) (h2 : Num.pouvexRelayed p ∈ reportCounters) (s : State) :
      g (s.sendWire n p) = g s := by
    unfold State.sendWire
    dsimp only
    split
    · rfl
    · refine (part_fold g _ (fun s a => ?_) _ _).trans (u.wires ..)
      unfold State.wireOut
      split
      · exact (u.count _ h2 1).trans (u.emit ..)
      · exact (u.count _ h1 1).trans (u.emit ..)
  unfold State.sendWires
  rw [List.foldl_cons, List.foldl_cons, List.foldl_nil, one 1 (by decide) (by decide), one 0 (by decide) (by decide)]

theorem Unreported.pouvexSend (u : Unreported g) (s : State) (a b : Nat) (l : List Byte) :
    g (s.pouvexSend a b l) = g s := by
  unfold State.pouvexSend; split
  · rfl
  · exact (u.pouvexOn ..).trans ((u.pouvexOn ..).trans (u.seq ..))

theorem Unreported.forwardNow (u : Unreported g) (s : State) (n : Nat) (q : BitVec 16) (l : List Byte) :
    g (s.forwardNow n q l) = g s := by
  unfold State.forwardNow
  dsimp only
  split
  · exact (u.count _ (by decide) 1).trans ((u.pouvexSend ..).trans (u.forwards ..))
  · exact u.forwards ..

theorem Unreported.forward (u : Unreported g) (s : State) (n : Nat) (e : EventSource) : g (s.forward n e) = g s := by
  unfold State.forward
  split
  · dsimp only
    split
    · exact u.forwardNow ..
    · exact u.forwards ..
  · rfl

/-- A raiser that leaves the part alone. -/
def Spares (g : State → β) (raise : Raiser) : Prop := ∀ n f c s, g (raise n f c s) = g s

theorem Unreported.ringComplete (u : Unreported g) {raise : Raiser} (h : Spares g raise) (s : State) :
    g (ringComplete raise 35 s) = g s := by
  unfold Machine.ringComplete
  dsimp only
  split
  · rw [h, u.ring]
  · exact u.ring ..

theorem Unreported.logWrite (u : Unreported g) {raise : Raiser} (h : Spares g raise) (rec : List Byte) (s : State) :
    g (logWrite raise 35 rec s).2 = g s := by
  unfold Machine.logWrite
  dsimp only
  split
  · rw [u.ringComplete h, u.count _ (by decide), u.ring, u.emit]
  · rw [h, u.count _ (by decide)]

theorem Unreported.advanceEffects (u : Unreported g) {raise : Raiser} (h : Spares g raise) (d : Bool) (n : Nat)
    (s : State) : g (advanceEffects raise d n s) = g s := by
  unfold Machine.advanceEffects
  extract_lets e rt s1 s2 s3
  have h1 : g s1 = g s := by
    unfold s1; split
    · exact u.setMsix ..
    · rfl
  have h2 : g s2 = g s := (part_fold g _ (fun s a => u.emit ..) _ s1).trans h1
  rw [u.forward]
  unfold s3
  split
  · split
    rename_i ok s4 heq
    have h4 : g s4 = g s := by
      rw [show s4 = (Machine.logWrite raise 35 (eventRecord s2.node n e.word e.time.toNat e.capture) s2).2 from
        (congrArg Prod.snd heq).symm, u.logWrite h, h2]
    split <;> rw [u.count _ (by decide), h4]
  · exact h2

theorem Unreported.seqAdvance (u : Unreported g) {raise : Raiser} (h : Spares g raise) (d : Bool) (n f a : Nat)
    (s : State) : g (seqAdvance raise d n f a s) = g s := by
  unfold Machine.seqAdvance
  dsimp only
  rw [u.advanceEffects h, u.setSource]

theorem Unreported.closeHoldOff (u : Unreported g) {raise : Raiser} (h : Spares g raise) (d : Bool) (n : Nat) (s : State) :
    g (closeHoldOff raise d n s) = g s := by
  unfold Machine.closeHoldOff
  dsimp only
  split
  · split
    · exact u.seqAdvance h ..
    · rfl
  · rfl

theorem Unreported.raiseWith (u : Unreported g) {raise : Raiser} (h : Spares g raise) (d : Bool) :
    Spares g (raiseWith raise d) := by
  intro n f c s
  unfold Machine.raiseWith
  extract_lets s1 c1 s2 src e inHold
  have h2 : g s2 = g s := by
    unfold s2; split
    · exact (u.trig s1).trans (u.closeHoldOff h ..)
    · exact u.closeHoldOff h ..
  split
  · rw [u.setSource, h2]
  · rw [u.seqAdvance h, u.setSource, h2]

theorem Unreported.raiseN (u : Unreported g) : ∀ k d, Spares g (raiseN k d)
  | 0, _ => fun _ _ _ _ => rfl
  | k + 1, d => u.raiseWith (u.raiseN k d) d

/-- Raising an event leaves the part alone. -/
theorem Unreported.raise (u : Unreported g) (s : State) (n f : Nat) (c : List Byte) : g (s.raise n f c) = g s :=
  u.raiseN 4 s.dormant n f c s

theorem Unsettled.takeFreeze (u : Unsettled g) (s : State) : g s.takeFreeze = g s := by
  unfold State.takeFreeze
  dsimp only
  split
  · rw [u.overrun, u.cut, u.count _ (by decide)]
  · split
    · split
      · exact u.cut ..
      · rfl
    · rfl

/-- The end of a command leaves the part alone. -/
theorem Unsettled.settle (u : Unsettled g) (s : State) : g s.settle = g s := by
  unfold State.settle
  extract_lets sat c1 s1 s2 lost p1 s3 s4 s5
  rw [u.sendWires]
  have h2 : g s2 = g s := (part_fold g _ (fun s a => u.raise ..) _ s1).trans (u.sat ..)
  have h3 : g s3 = g s := (u.lost s2 false).trans h2
  have h4 : g s4 = g s := by
    unfold s4; split
    · rw [u.raise]; exact h3
    · exact h3
  exact (u.takeFreeze s4).trans h4

theorem Unsettled.finish (u : Unsettled g) (s : State) : g s.settle.markIdle = g s :=
  (markIdle_part g u.slice s.settle).trans (u.settle s)

end Sys2Proof.Machine
end

