-- ==== Sys2Proof/Laws/Ends.lean ====
section
/-! SUPPORT. What each runner makes of an effect: the state a command leaves, its body, its reports and its other parts. -/
namespace Sys2Proof.Machine

variable {β : Type} {g : State → β}

/-! ### Runners, with the state they leave -/

/-- What a runner puts back around an effect. -/
def State.done (s : State) (t : Nat) (x : State) : State :=
  { x with now := max s.now t, pending := s.pending, nv := s.nv, ao := s.ao }

/-- An effect that left these alone has nothing put back. -/
theorem done_same {s x : State} {t : Nat} (h1 : x.now = max s.now t) (h2 : x.pending = s.pending) (h3 : x.nv = s.nv)
    (h4 : x.ao = s.ao) : s.done t x = x := by
  unfold State.done; rw [← h1, ← h2, ← h3, ← h4]

theorem body_done (s x : State) (t : Nat) : (s.done t x).body = s.done t x.body := rfl
theorem grows_done (s x : State) (t : Nat) : Grows x (s.done t x) := .of_same rfl rfl
theorem exact_done (s : State) {x y : State} (t : Nat) (h : Exact x y) : Exact x (s.done t y) := h

/-- The state that a command leaves: `s` before it, `x` what its effect makes of the state at its instant. -/
def State.ends (s : State) (t : Nat) (x : State) : State := s.done t x.settle.markIdle

/-- What a command leaves that may change what a warm reset keeps, and one that may blow fuses. -/
def State.endsAo (s : State) (t : Nat) (x : State) : State :=
  { x.settle.markIdle with now := max s.now t, pending := s.pending, nv := s.nv }
def State.endsNv (s : State) (t : Nat) (x : State) : State :=
  { x.settle.markIdle with now := max s.now t, pending := s.pending, nv := s.nv.burn x.settle.markIdle.nv }

theorem run_eq {s : State} {t : Nat} (f : State → State) (h : s.acts t) :
    s.run t f = .next (s.ends t (f (s.enter t))) := by
  unfold State.run
  rw [go_acts f (fun e => !e.dormant) (by simp [h.1]) h.up]; rfl

theorem runAny_eq {s : State} {t : Nat} (f : State → State) (h : s.upAt t) :
    s.runAny t f = .next (s.ends t (f (s.enter t))) := by
  unfold State.runAny
  rw [go_acts f (fun _ => true) rfl h]; rfl

theorem runPipe_eq {s : State} {t : Nat} (f : State → State) (h : s.acts t) (hp : s.piped) :
    s.runPipe t f = .next (s.ends t (f (s.enter t))) := by
  unfold State.runPipe
  rw [run_eq _ h, enter_locked, if_pos (show s.locked .pipeline = true from hp)]

theorem runAo_eq {s : State} {t : Nat} (f : State → State) (h : s.upAt t) :
    s.runAo t f = .next (s.endsAo t (f (s.enter t))) := by
  unfold State.runAo
  rw [go_acts f (fun _ => true) rfl h]; rfl

theorem runNv_eq {s : State} {t : Nat} (f : State → State) (h : s.upAt t) :
    s.runNv t f = .next (s.endsNv t (f (s.enter t))) := by
  unfold State.runNv
  rw [go_acts f (fun _ => true) rfl h]; rfl

/-- Time, the queue, the fuses and the always-on memory, which a runner puts back, are as before. -/
structure Held (s : State) (t : Nat) (y : State) : Prop where
  now : y.now = max s.now t
  pending : y.pending = s.pending
  nv : y.nv = s.nv
  ao : y.ao = s.ao

theorem held_enter (s : State) (t : Nat) : Held s t (s.enter t) :=
  ⟨enter_now s t, enter_pending s t, enter_nv s t, enter_ao s t⟩
theorem held_body {s y : State} {t : Nat} (h : Held s t y) : Held s t y.body := ⟨h.1, h.2, h.3, h.4⟩

/-- The body a command leaves is that of its effect. -/
theorem ends_body {s x y : State} {t : Nat} (hx : x.body = y.body) (h : Held s t y) : (s.ends t x).body = y.body := by
  unfold State.ends
  rw [body_done, body_markIdle, body_settle, hx]
  exact done_same h.1 h.2 h.3 h.4

theorem body_settled (x : State) : x.settle.markIdle.body = x.body := by rw [body_markIdle, body_settle]
theorem body_put (y : State) (n : Nat) (p : List Instr) (nv : Nv) :
    ({ y with now := n, pending := p, nv := nv } : State).body = { y.body with now := n, pending := p, nv := nv } := rfl
theorem grows_put (y : State) (n : Nat) (p : List Instr) (nv : Nv) :
    Grows y { y with now := n, pending := p, nv := nv } := .of_same rfl rfl
theorem nv_body (x : State) : x.body.nv = x.nv := rfl
theorem nv_settled (x : State) : x.settle.markIdle.nv = x.nv := by
  rw [← nv_body, body_settled, nv_body]

theorem endsAo_body (s x : State) (t : Nat) : (s.endsAo t x).body =
    { x.body with now := max s.now t, pending := s.pending, nv := s.nv } := by
  unfold State.endsAo
  rw [body_put, body_settled]

theorem endsNv_body (s x : State) (t : Nat) : (s.endsNv t x).body =
    { x.body with now := max s.now t, pending := s.pending, nv := s.nv.burn x.nv } := by
  unfold State.endsNv
  rw [body_put, body_settled, nv_settled]

theorem endsAo_grows (s x : State) (t : Nat) : Grows x (s.endsAo t x) := (grows_end x).trans (grows_put ..)
theorem endsNv_grows (s x : State) (t : Nat) : Grows x (s.endsNv t x) := (grows_end x).trans (grows_put ..)

theorem ends_grows (s x : State) (t : Nat) : Grows x (s.ends t x) := (grows_end x).trans (grows_done ..)

theorem ends_exact {s x : State} {t : Nat}
    (h : x.cnt.saturated = [] ∧ x.pair.lost = false ∧ x.cnt.triggered = false ∧ x.wiresIdle ∧ x.cnt.grip = none) :
    Exact x (s.ends t x) := by
  unfold State.ends
  apply exact_done
  rw [settle_calm h.1 h.2.1 h.2.2.1 h.2.2.2.1 h.2.2.2.2]
  exact ⟨markIdle_evt x, markIdle_out x, markIdle_cnt x, markIdle_dom x, markIdle_host x⟩

/-- A part of the state that a runner does not put back. -/
def Outside (g : State → β) : Prop := ∀ s x t, g (State.done s t x) = g x

theorem ends_part {s x : State} {t : Nat} (u : Unsettled g) (o : Outside g) : g (s.ends t x) = g x :=
  (o ..).trans (u.finish x)

end Sys2Proof.Machine
end

