-- ==== Sys2Proof/Laws/State.lean ====
section
/-! SUPPORT. What each named update of State leaves: one lemma for each field it leaves alone, and a read after it. -/
namespace Sys2Proof.Machine

/-! ### setVal -/

section
variable (s : State) (i u : Nat) (b : List Byte)
@[simp] theorem State.setVal_nv : (s.setVal i u b).nv = s.nv := rfl
@[simp] theorem State.setVal_ao : (s.setVal i u b).ao = s.ao := rfl
@[simp] theorem State.setVal_now : (s.setVal i u b).now = s.now := rfl
@[simp] theorem State.setVal_draw : (s.setVal i u b).draw = s.draw := rfl
@[simp] theorem State.setVal_out : (s.setVal i u b).out = s.out := rfl
@[simp] theorem State.setVal_evt : (s.setVal i u b).evt = s.evt := rfl
@[simp] theorem State.setVal_route : (s.setVal i u b).route = s.route := rfl
@[simp] theorem State.setVal_cnt : (s.setVal i u b).cnt = s.cnt := rfl
@[simp] theorem State.setVal_acc : (s.setVal i u b).acc = s.acc := rfl
@[simp] theorem State.setVal_host : (s.setVal i u b).host = s.host := rfl
@[simp] theorem State.setVal_dom : (s.setVal i u b).dom = s.dom := rfl
@[simp] theorem State.setVal_wires : (s.setVal i u b).wires = s.wires := rfl
@[simp] theorem State.setVal_proc : (s.setVal i u b).proc = s.proc := rfl
@[simp] theorem State.setVal_mbox : (s.setVal i u b).mbox = s.mbox := rfl
@[simp] theorem State.setVal_ports : (s.setVal i u b).ports = s.ports := rfl
@[simp] theorem State.setVal_rules : (s.setVal i u b).rules = s.rules := rfl
@[simp] theorem State.setVal_fdb : (s.setVal i u b).fdb = s.fdb := rfl
@[simp] theorem State.setVal_flow : (s.setVal i u b).flow = s.flow := rfl
@[simp] theorem State.setVal_buf : (s.setVal i u b).buf = s.buf := rfl
@[simp] theorem State.setVal_egress : (s.setVal i u b).egress = s.egress := rfl
@[simp] theorem State.setVal_queues : (s.setVal i u b).queues = s.queues := rfl
@[simp] theorem State.setVal_rounds : (s.setVal i u b).rounds = s.rounds := rfl
@[simp] theorem State.setVal_red : (s.setVal i u b).red = s.red := rfl
@[simp] theorem State.setVal_split : (s.setVal i u b).split = s.split := rfl
@[simp] theorem State.setVal_captured0 : (s.setVal i u b).captured0 = s.captured0 := rfl
@[simp] theorem State.setVal_captured1 : (s.setVal i u b).captured1 = s.captured1 := rfl
@[simp] theorem State.setVal_pair : (s.setVal i u b).pair = s.pair := rfl
@[simp] theorem State.setVal_pow : (s.setVal i u b).pow = s.pow := rfl
@[simp] theorem State.setVal_boot : (s.setVal i u b).boot = s.boot := rfl
@[simp] theorem State.setVal_panel : (s.setVal i u b).panel = s.panel := rfl
@[simp] theorem State.setVal_clock0 : (s.setVal i u b).clock0 = s.clock0 := rfl
@[simp] theorem State.setVal_clock1 : (s.setVal i u b).clock1 = s.clock1 := rfl
@[simp] theorem State.setVal_pending : (s.setVal i u b).pending = s.pending := rfl
end

/-! ### emit -/

section
variable (s : State) (o : Out)
@[simp] theorem State.emit_nv : (s.emit o).nv = s.nv := rfl
@[simp] theorem State.emit_ao : (s.emit o).ao = s.ao := rfl
@[simp] theorem State.emit_now : (s.emit o).now = s.now := rfl
@[simp] theorem State.emit_draw : (s.emit o).draw = s.draw := rfl
@[simp] theorem State.emit_dict : (s.emit o).dict = s.dict := rfl
@[simp] theorem State.emit_evt : (s.emit o).evt = s.evt := rfl
@[simp] theorem State.emit_route : (s.emit o).route = s.route := rfl
@[simp] theorem State.emit_cnt : (s.emit o).cnt = s.cnt := rfl
@[simp] theorem State.emit_acc : (s.emit o).acc = s.acc := rfl
@[simp] theorem State.emit_host : (s.emit o).host = s.host := rfl
@[simp] theorem State.emit_dom : (s.emit o).dom = s.dom := rfl
@[simp] theorem State.emit_wires : (s.emit o).wires = s.wires := rfl
@[simp] theorem State.emit_proc : (s.emit o).proc = s.proc := rfl
@[simp] theorem State.emit_mbox : (s.emit o).mbox = s.mbox := rfl
@[simp] theorem State.emit_ports : (s.emit o).ports = s.ports := rfl
@[simp] theorem State.emit_rules : (s.emit o).rules = s.rules := rfl
@[simp] theorem State.emit_fdb : (s.emit o).fdb = s.fdb := rfl
@[simp] theorem State.emit_flow : (s.emit o).flow = s.flow := rfl
@[simp] theorem State.emit_buf : (s.emit o).buf = s.buf := rfl
@[simp] theorem State.emit_egress : (s.emit o).egress = s.egress := rfl
@[simp] theorem State.emit_queues : (s.emit o).queues = s.queues := rfl
@[simp] theorem State.emit_rounds : (s.emit o).rounds = s.rounds := rfl
@[simp] theorem State.emit_red : (s.emit o).red = s.red := rfl
@[simp] theorem State.emit_split : (s.emit o).split = s.split := rfl
@[simp] theorem State.emit_captured0 : (s.emit o).captured0 = s.captured0 := rfl
@[simp] theorem State.emit_captured1 : (s.emit o).captured1 = s.captured1 := rfl
@[simp] theorem State.emit_pair : (s.emit o).pair = s.pair := rfl
@[simp] theorem State.emit_pow : (s.emit o).pow = s.pow := rfl
@[simp] theorem State.emit_boot : (s.emit o).boot = s.boot := rfl
@[simp] theorem State.emit_panel : (s.emit o).panel = s.panel := rfl
@[simp] theorem State.emit_clock0 : (s.emit o).clock0 = s.clock0 := rfl
@[simp] theorem State.emit_clock1 : (s.emit o).clock1 = s.clock1 := rfl
@[simp] theorem State.emit_pending : (s.emit o).pending = s.pending := rfl
end

/-! ### setGroup -/

section
variable (s : State) (n : Nat) (v : ProcGroup)
@[simp] theorem State.setGroup_nv : (s.setGroup n v).nv = s.nv := rfl
@[simp] theorem State.setGroup_ao : (s.setGroup n v).ao = s.ao := rfl
@[simp] theorem State.setGroup_now : (s.setGroup n v).now = s.now := rfl
@[simp] theorem State.setGroup_draw : (s.setGroup n v).draw = s.draw := rfl
@[simp] theorem State.setGroup_out : (s.setGroup n v).out = s.out := rfl
@[simp] theorem State.setGroup_dict : (s.setGroup n v).dict = s.dict := rfl
@[simp] theorem State.setGroup_evt : (s.setGroup n v).evt = s.evt := rfl
@[simp] theorem State.setGroup_route : (s.setGroup n v).route = s.route := rfl
@[simp] theorem State.setGroup_cnt : (s.setGroup n v).cnt = s.cnt := rfl
@[simp] theorem State.setGroup_acc : (s.setGroup n v).acc = s.acc := rfl
@[simp] theorem State.setGroup_host : (s.setGroup n v).host = s.host := rfl
@[simp] theorem State.setGroup_dom : (s.setGroup n v).dom = s.dom := rfl
@[simp] theorem State.setGroup_wires : (s.setGroup n v).wires = s.wires := rfl
@[simp] theorem State.setGroup_mbox : (s.setGroup n v).mbox = s.mbox := rfl
@[simp] theorem State.setGroup_ports : (s.setGroup n v).ports = s.ports := rfl
@[simp] theorem State.setGroup_rules : (s.setGroup n v).rules = s.rules := rfl
@[simp] theorem State.setGroup_fdb : (s.setGroup n v).fdb = s.fdb := rfl
@[simp] theorem State.setGroup_flow : (s.setGroup n v).flow = s.flow := rfl
@[simp] theorem State.setGroup_buf : (s.setGroup n v).buf = s.buf := rfl
@[simp] theorem State.setGroup_egress : (s.setGroup n v).egress = s.egress := rfl
@[simp] theorem State.setGroup_queues : (s.setGroup n v).queues = s.queues := rfl
@[simp] theorem State.setGroup_rounds : (s.setGroup n v).rounds = s.rounds := rfl
@[simp] theorem State.setGroup_red : (s.setGroup n v).red = s.red := rfl
@[simp] theorem State.setGroup_split : (s.setGroup n v).split = s.split := rfl
@[simp] theorem State.setGroup_captured0 : (s.setGroup n v).captured0 = s.captured0 := rfl
@[simp] theorem State.setGroup_captured1 : (s.setGroup n v).captured1 = s.captured1 := rfl
@[simp] theorem State.setGroup_pair : (s.setGroup n v).pair = s.pair := rfl
@[simp] theorem State.setGroup_pow : (s.setGroup n v).pow = s.pow := rfl
@[simp] theorem State.setGroup_boot : (s.setGroup n v).boot = s.boot := rfl
@[simp] theorem State.setGroup_panel : (s.setGroup n v).panel = s.panel := rfl
@[simp] theorem State.setGroup_clock0 : (s.setGroup n v).clock0 = s.clock0 := rfl
@[simp] theorem State.setGroup_clock1 : (s.setGroup n v).clock1 = s.clock1 := rfl
@[simp] theorem State.setGroup_pending : (s.setGroup n v).pending = s.pending := rfl
@[simp] theorem State.setGroup_group : (s.setGroup n v).group n = v := tget_tset_same ..
theorem State.setGroup_group_other {m : Nat} (h : m ≠ n) : (s.setGroup n v).group m = s.group m := tget_tset_other _ _ _ _ _ h
end

/-! ### setSource -/

section
variable (s : State) (n : Nat) (v : EventSource)
@[simp] theorem State.setSource_nv : (s.setSource n v).nv = s.nv := rfl
@[simp] theorem State.setSource_ao : (s.setSource n v).ao = s.ao := rfl
@[simp] theorem State.setSource_now : (s.setSource n v).now = s.now := rfl
@[simp] theorem State.setSource_draw : (s.setSource n v).draw = s.draw := rfl
@[simp] theorem State.setSource_out : (s.setSource n v).out = s.out := rfl
@[simp] theorem State.setSource_dict : (s.setSource n v).dict = s.dict := rfl
@[simp] theorem State.setSource_route : (s.setSource n v).route = s.route := rfl
@[simp] theorem State.setSource_cnt : (s.setSource n v).cnt = s.cnt := rfl
@[simp] theorem State.setSource_acc : (s.setSource n v).acc = s.acc := rfl
@[simp] theorem State.setSource_host : (s.setSource n v).host = s.host := rfl
@[simp] theorem State.setSource_dom : (s.setSource n v).dom = s.dom := rfl
@[simp] theorem State.setSource_wires : (s.setSource n v).wires = s.wires := rfl
@[simp] theorem State.setSource_proc : (s.setSource n v).proc = s.proc := rfl
@[simp] theorem State.setSource_mbox : (s.setSource n v).mbox = s.mbox := rfl
@[simp] theorem State.setSource_ports : (s.setSource n v).ports = s.ports := rfl
@[simp] theorem State.setSource_rules : (s.setSource n v).rules = s.rules := rfl
@[simp] theorem State.setSource_fdb : (s.setSource n v).fdb = s.fdb := rfl
@[simp] theorem State.setSource_flow : (s.setSource n v).flow = s.flow := rfl
@[simp] theorem State.setSource_buf : (s.setSource n v).buf = s.buf := rfl
@[simp] theorem State.setSource_egress : (s.setSource n v).egress = s.egress := rfl
@[simp] theorem State.setSource_queues : (s.setSource n v).queues = s.queues := rfl
@[simp] theorem State.setSource_rounds : (s.setSource n v).rounds = s.rounds := rfl
@[simp] theorem State.setSource_red : (s.setSource n v).red = s.red := rfl
@[simp] theorem State.setSource_split : (s.setSource n v).split = s.split := rfl
@[simp] theorem State.setSource_captured0 : (s.setSource n v).captured0 = s.captured0 := rfl
@[simp] theorem State.setSource_captured1 : (s.setSource n v).captured1 = s.captured1 := rfl
@[simp] theorem State.setSource_pair : (s.setSource n v).pair = s.pair := rfl
@[simp] theorem State.setSource_pow : (s.setSource n v).pow = s.pow := rfl
@[simp] theorem State.setSource_boot : (s.setSource n v).boot = s.boot := rfl
@[simp] theorem State.setSource_panel : (s.setSource n v).panel = s.panel := rfl
@[simp] theorem State.setSource_clock0 : (s.setSource n v).clock0 = s.clock0 := rfl
@[simp] theorem State.setSource_clock1 : (s.setSource n v).clock1 = s.clock1 := rfl
@[simp] theorem State.setSource_pending : (s.setSource n v).pending = s.pending := rfl
end

/-! ### setRing -/

section
variable (s : State) (n : Nat) (v : Ring)
@[simp] theorem State.setRing_nv : (s.setRing n v).nv = s.nv := rfl
@[simp] theorem State.setRing_ao : (s.setRing n v).ao = s.ao := rfl
@[simp] theorem State.setRing_now : (s.setRing n v).now = s.now := rfl
@[simp] theorem State.setRing_draw : (s.setRing n v).draw = s.draw := rfl
@[simp] theorem State.setRing_out : (s.setRing n v).out = s.out := rfl
@[simp] theorem State.setRing_dict : (s.setRing n v).dict = s.dict := rfl
@[simp] theorem State.setRing_evt : (s.setRing n v).evt = s.evt := rfl
@[simp] theorem State.setRing_route : (s.setRing n v).route = s.route := rfl
@[simp] theorem State.setRing_cnt : (s.setRing n v).cnt = s.cnt := rfl
@[simp] theorem State.setRing_acc : (s.setRing n v).acc = s.acc := rfl
@[simp] theorem State.setRing_dom : (s.setRing n v).dom = s.dom := rfl
@[simp] theorem State.setRing_wires : (s.setRing n v).wires = s.wires := rfl
@[simp] theorem State.setRing_proc : (s.setRing n v).proc = s.proc := rfl
@[simp] theorem State.setRing_mbox : (s.setRing n v).mbox = s.mbox := rfl
@[simp] theorem State.setRing_ports : (s.setRing n v).ports = s.ports := rfl
@[simp] theorem State.setRing_rules : (s.setRing n v).rules = s.rules := rfl
@[simp] theorem State.setRing_fdb : (s.setRing n v).fdb = s.fdb := rfl
@[simp] theorem State.setRing_flow : (s.setRing n v).flow = s.flow := rfl
@[simp] theorem State.setRing_buf : (s.setRing n v).buf = s.buf := rfl
@[simp] theorem State.setRing_egress : (s.setRing n v).egress = s.egress := rfl
@[simp] theorem State.setRing_queues : (s.setRing n v).queues = s.queues := rfl
@[simp] theorem State.setRing_rounds : (s.setRing n v).rounds = s.rounds := rfl
@[simp] theorem State.setRing_red : (s.setRing n v).red = s.red := rfl
@[simp] theorem State.setRing_split : (s.setRing n v).split = s.split := rfl
@[simp] theorem State.setRing_captured0 : (s.setRing n v).captured0 = s.captured0 := rfl
@[simp] theorem State.setRing_captured1 : (s.setRing n v).captured1 = s.captured1 := rfl
@[simp] theorem State.setRing_pair : (s.setRing n v).pair = s.pair := rfl
@[simp] theorem State.setRing_pow : (s.setRing n v).pow = s.pow := rfl
@[simp] theorem State.setRing_boot : (s.setRing n v).boot = s.boot := rfl
@[simp] theorem State.setRing_panel : (s.setRing n v).panel = s.panel := rfl
@[simp] theorem State.setRing_clock0 : (s.setRing n v).clock0 = s.clock0 := rfl
@[simp] theorem State.setRing_clock1 : (s.setRing n v).clock1 = s.clock1 := rfl
@[simp] theorem State.setRing_pending : (s.setRing n v).pending = s.pending := rfl
@[simp] theorem State.setRing_ring : (s.setRing n v).ring n = v := tget_tset_same ..
theorem State.setRing_ring_other {m : Nat} (h : m ≠ n) : (s.setRing n v).ring m = s.ring m := tget_tset_other _ _ _ _ _ h
end

/-! ### setPort -/

section
variable (s : State) (n : Nat) (v : Port)
@[simp] theorem State.setPort_nv : (s.setPort n v).nv = s.nv := rfl
@[simp] theorem State.setPort_ao : (s.setPort n v).ao = s.ao := rfl
@[simp] theorem State.setPort_now : (s.setPort n v).now = s.now := rfl
@[simp] theorem State.setPort_draw : (s.setPort n v).draw = s.draw := rfl
@[simp] theorem State.setPort_out : (s.setPort n v).out = s.out := rfl
@[simp] theorem State.setPort_dict : (s.setPort n v).dict = s.dict := rfl
@[simp] theorem State.setPort_evt : (s.setPort n v).evt = s.evt := rfl
@[simp] theorem State.setPort_route : (s.setPort n v).route = s.route := rfl
@[simp] theorem State.setPort_cnt : (s.setPort n v).cnt = s.cnt := rfl
@[simp] theorem State.setPort_acc : (s.setPort n v).acc = s.acc := rfl
@[simp] theorem State.setPort_host : (s.setPort n v).host = s.host := rfl
@[simp] theorem State.setPort_dom : (s.setPort n v).dom = s.dom := rfl
@[simp] theorem State.setPort_wires : (s.setPort n v).wires = s.wires := rfl
@[simp] theorem State.setPort_proc : (s.setPort n v).proc = s.proc := rfl
@[simp] theorem State.setPort_mbox : (s.setPort n v).mbox = s.mbox := rfl
@[simp] theorem State.setPort_rules : (s.setPort n v).rules = s.rules := rfl
@[simp] theorem State.setPort_fdb : (s.setPort n v).fdb = s.fdb := rfl
@[simp] theorem State.setPort_flow : (s.setPort n v).flow = s.flow := rfl
@[simp] theorem State.setPort_buf : (s.setPort n v).buf = s.buf := rfl
@[simp] theorem State.setPort_egress : (s.setPort n v).egress = s.egress := rfl
@[simp] theorem State.setPort_queues : (s.setPort n v).queues = s.queues := rfl
@[simp] theorem State.setPort_rounds : (s.setPort n v).rounds = s.rounds := rfl
@[simp] theorem State.setPort_red : (s.setPort n v).red = s.red := rfl
@[simp] theorem State.setPort_split : (s.setPort n v).split = s.split := rfl
@[simp] theorem State.setPort_captured0 : (s.setPort n v).captured0 = s.captured0 := rfl
@[simp] theorem State.setPort_captured1 : (s.setPort n v).captured1 = s.captured1 := rfl
@[simp] theorem State.setPort_pair : (s.setPort n v).pair = s.pair := rfl
@[simp] theorem State.setPort_pow : (s.setPort n v).pow = s.pow := rfl
@[simp] theorem State.setPort_boot : (s.setPort n v).boot = s.boot := rfl
@[simp] theorem State.setPort_panel : (s.setPort n v).panel = s.panel := rfl
@[simp] theorem State.setPort_clock0 : (s.setPort n v).clock0 = s.clock0 := rfl
@[simp] theorem State.setPort_clock1 : (s.setPort n v).clock1 = s.clock1 := rfl
@[simp] theorem State.setPort_pending : (s.setPort n v).pending = s.pending := rfl
@[simp] theorem State.setPort_port : (s.setPort n v).port n = v := tget_tset_same ..
theorem State.setPort_port_other {m : Nat} (h : m ≠ n) : (s.setPort n v).port m = s.port m := tget_tset_other _ _ _ _ _ h
end

/-! ### setSlice -/

section
variable (s : State) (n : Nat) (v : Slice)
@[simp] theorem State.setSlice_nv : (s.setSlice n v).nv = s.nv := rfl
@[simp] theorem State.setSlice_ao : (s.setSlice n v).ao = s.ao := rfl
@[simp] theorem State.setSlice_now : (s.setSlice n v).now = s.now := rfl
@[simp] theorem State.setSlice_draw : (s.setSlice n v).draw = s.draw := rfl
@[simp] theorem State.setSlice_out : (s.setSlice n v).out = s.out := rfl
@[simp] theorem State.setSlice_dict : (s.setSlice n v).dict = s.dict := rfl
@[simp] theorem State.setSlice_evt : (s.setSlice n v).evt = s.evt := rfl
@[simp] theorem State.setSlice_route : (s.setSlice n v).route = s.route := rfl
@[simp] theorem State.setSlice_cnt : (s.setSlice n v).cnt = s.cnt := rfl
@[simp] theorem State.setSlice_acc : (s.setSlice n v).acc = s.acc := rfl
@[simp] theorem State.setSlice_host : (s.setSlice n v).host = s.host := rfl
@[simp] theorem State.setSlice_dom : (s.setSlice n v).dom = s.dom := rfl
@[simp] theorem State.setSlice_wires : (s.setSlice n v).wires = s.wires := rfl
@[simp] theorem State.setSlice_proc : (s.setSlice n v).proc = s.proc := rfl
@[simp] theorem State.setSlice_mbox : (s.setSlice n v).mbox = s.mbox := rfl
@[simp] theorem State.setSlice_ports : (s.setSlice n v).ports = s.ports := rfl
@[simp] theorem State.setSlice_rules : (s.setSlice n v).rules = s.rules := rfl
@[simp] theorem State.setSlice_fdb : (s.setSlice n v).fdb = s.fdb := rfl
@[simp] theorem State.setSlice_flow : (s.setSlice n v).flow = s.flow := rfl
@[simp] theorem State.setSlice_buf : (s.setSlice n v).buf = s.buf := rfl
@[simp] theorem State.setSlice_egress : (s.setSlice n v).egress = s.egress := rfl
@[simp] theorem State.setSlice_queues : (s.setSlice n v).queues = s.queues := rfl
@[simp] theorem State.setSlice_rounds : (s.setSlice n v).rounds = s.rounds := rfl
@[simp] theorem State.setSlice_red : (s.setSlice n v).red = s.red := rfl
@[simp] theorem State.setSlice_split : (s.setSlice n v).split = s.split := rfl
@[simp] theorem State.setSlice_captured0 : (s.setSlice n v).captured0 = s.captured0 := rfl
@[simp] theorem State.setSlice_captured1 : (s.setSlice n v).captured1 = s.captured1 := rfl
@[simp] theorem State.setSlice_pair : (s.setSlice n v).pair = s.pair := rfl
@[simp] theorem State.setSlice_boot : (s.setSlice n v).boot = s.boot := rfl
@[simp] theorem State.setSlice_panel : (s.setSlice n v).panel = s.panel := rfl
@[simp] theorem State.setSlice_clock0 : (s.setSlice n v).clock0 = s.clock0 := rfl
@[simp] theorem State.setSlice_clock1 : (s.setSlice n v).clock1 = s.clock1 := rfl
@[simp] theorem State.setSlice_pending : (s.setSlice n v).pending = s.pending := rfl
@[simp] theorem State.setSlice_slice : (s.setSlice n v).slice n = v := tget_tset_same ..
theorem State.setSlice_slice_other {m : Nat} (h : m ≠ n) : (s.setSlice n v).slice m = s.slice m := tget_tset_other _ _ _ _ _ h
end

/-! ### setEgr -/

section
variable (s : State) (n : Nat) (v : Egress)
@[simp] theorem State.setEgr_nv : (s.setEgr n v).nv = s.nv := rfl
@[simp] theorem State.setEgr_ao : (s.setEgr n v).ao = s.ao := rfl
@[simp] theorem State.setEgr_now : (s.setEgr n v).now = s.now := rfl
@[simp] theorem State.setEgr_draw : (s.setEgr n v).draw = s.draw := rfl
@[simp] theorem State.setEgr_out : (s.setEgr n v).out = s.out := rfl
@[simp] theorem State.setEgr_dict : (s.setEgr n v).dict = s.dict := rfl
@[simp] theorem State.setEgr_evt : (s.setEgr n v).evt = s.evt := rfl
@[simp] theorem State.setEgr_route : (s.setEgr n v).route = s.route := rfl
@[simp] theorem State.setEgr_cnt : (s.setEgr n v).cnt = s.cnt := rfl
@[simp] theorem State.setEgr_acc : (s.setEgr n v).acc = s.acc := rfl
@[simp] theorem State.setEgr_host : (s.setEgr n v).host = s.host := rfl
@[simp] theorem State.setEgr_dom : (s.setEgr n v).dom = s.dom := rfl
@[simp] theorem State.setEgr_wires : (s.setEgr n v).wires = s.wires := rfl
@[simp] theorem State.setEgr_proc : (s.setEgr n v).proc = s.proc := rfl
@[simp] theorem State.setEgr_mbox : (s.setEgr n v).mbox = s.mbox := rfl
@[simp] theorem State.setEgr_ports : (s.setEgr n v).ports = s.ports := rfl
@[simp] theorem State.setEgr_rules : (s.setEgr n v).rules = s.rules := rfl
@[simp] theorem State.setEgr_fdb : (s.setEgr n v).fdb = s.fdb := rfl
@[simp] theorem State.setEgr_flow : (s.setEgr n v).flow = s.flow := rfl
@[simp] theorem State.setEgr_buf : (s.setEgr n v).buf = s.buf := rfl
@[simp] theorem State.setEgr_queues : (s.setEgr n v).queues = s.queues := rfl
@[simp] theorem State.setEgr_rounds : (s.setEgr n v).rounds = s.rounds := rfl
@[simp] theorem State.setEgr_red : (s.setEgr n v).red = s.red := rfl
@[simp] theorem State.setEgr_split : (s.setEgr n v).split = s.split := rfl
@[simp] theorem State.setEgr_captured0 : (s.setEgr n v).captured0 = s.captured0 := rfl
@[simp] theorem State.setEgr_captured1 : (s.setEgr n v).captured1 = s.captured1 := rfl
@[simp] theorem State.setEgr_pair : (s.setEgr n v).pair = s.pair := rfl
@[simp] theorem State.setEgr_pow : (s.setEgr n v).pow = s.pow := rfl
@[simp] theorem State.setEgr_boot : (s.setEgr n v).boot = s.boot := rfl
@[simp] theorem State.setEgr_panel : (s.setEgr n v).panel = s.panel := rfl
@[simp] theorem State.setEgr_clock0 : (s.setEgr n v).clock0 = s.clock0 := rfl
@[simp] theorem State.setEgr_clock1 : (s.setEgr n v).clock1 = s.clock1 := rfl
@[simp] theorem State.setEgr_pending : (s.setEgr n v).pending = s.pending := rfl
@[simp] theorem State.setEgr_egr : (s.setEgr n v).egr n = v := tget_tset_same ..
theorem State.setEgr_egr_other {m : Nat} (h : m ≠ n) : (s.setEgr n v).egr m = s.egr m := tget_tset_other _ _ _ _ _ h
end

/-! ### setFrame -/

section
variable (s : State) (n : Nat) (v : Frame)
@[simp] theorem State.setFrame_nv : (s.setFrame n v).nv = s.nv := rfl
@[simp] theorem State.setFrame_ao : (s.setFrame n v).ao = s.ao := rfl
@[simp] theorem State.setFrame_now : (s.setFrame n v).now = s.now := rfl
@[simp] theorem State.setFrame_draw : (s.setFrame n v).draw = s.draw := rfl
@[simp] theorem State.setFrame_out : (s.setFrame n v).out = s.out := rfl
@[simp] theorem State.setFrame_dict : (s.setFrame n v).dict = s.dict := rfl
@[simp] theorem State.setFrame_evt : (s.setFrame n v).evt = s.evt := rfl
@[simp] theorem State.setFrame_route : (s.setFrame n v).route = s.route := rfl
@[simp] theorem State.setFrame_cnt : (s.setFrame n v).cnt = s.cnt := rfl
@[simp] theorem State.setFrame_acc : (s.setFrame n v).acc = s.acc := rfl
@[simp] theorem State.setFrame_host : (s.setFrame n v).host = s.host := rfl
@[simp] theorem State.setFrame_dom : (s.setFrame n v).dom = s.dom := rfl
@[simp] theorem State.setFrame_wires : (s.setFrame n v).wires = s.wires := rfl
@[simp] theorem State.setFrame_proc : (s.setFrame n v).proc = s.proc := rfl
@[simp] theorem State.setFrame_mbox : (s.setFrame n v).mbox = s.mbox := rfl
@[simp] theorem State.setFrame_ports : (s.setFrame n v).ports = s.ports := rfl
@[simp] theorem State.setFrame_rules : (s.setFrame n v).rules = s.rules := rfl
@[simp] theorem State.setFrame_fdb : (s.setFrame n v).fdb = s.fdb := rfl
@[simp] theorem State.setFrame_flow : (s.setFrame n v).flow = s.flow := rfl
@[simp] theorem State.setFrame_egress : (s.setFrame n v).egress = s.egress := rfl
@[simp] theorem State.setFrame_queues : (s.setFrame n v).queues = s.queues := rfl
@[simp] theorem State.setFrame_rounds : (s.setFrame n v).rounds = s.rounds := rfl
@[simp] theorem State.setFrame_red : (s.setFrame n v).red = s.red := rfl
@[simp] theorem State.setFrame_split : (s.setFrame n v).split = s.split := rfl
@[simp] theorem State.setFrame_captured0 : (s.setFrame n v).captured0 = s.captured0 := rfl
@[simp] theorem State.setFrame_captured1 : (s.setFrame n v).captured1 = s.captured1 := rfl
@[simp] theorem State.setFrame_pair : (s.setFrame n v).pair = s.pair := rfl
@[simp] theorem State.setFrame_pow : (s.setFrame n v).pow = s.pow := rfl
@[simp] theorem State.setFrame_boot : (s.setFrame n v).boot = s.boot := rfl
@[simp] theorem State.setFrame_panel : (s.setFrame n v).panel = s.panel := rfl
@[simp] theorem State.setFrame_clock0 : (s.setFrame n v).clock0 = s.clock0 := rfl
@[simp] theorem State.setFrame_clock1 : (s.setFrame n v).clock1 = s.clock1 := rfl
@[simp] theorem State.setFrame_pending : (s.setFrame n v).pending = s.pending := rfl
@[simp] theorem State.setFrame_frame : (s.setFrame n v).frame n = some v := tfind_tput_same ..
theorem State.setFrame_frame_other {m : Nat} (h : m ≠ n) : (s.setFrame n v).frame m = s.frame m := tfind_tput_other _ _ _ _ h
end

/-! ### setCopy -/

section
variable (s : State) (n : Nat) (v : Copy)
@[simp] theorem State.setCopy_nv : (s.setCopy n v).nv = s.nv := rfl
@[simp] theorem State.setCopy_ao : (s.setCopy n v).ao = s.ao := rfl
@[simp] theorem State.setCopy_now : (s.setCopy n v).now = s.now := rfl
@[simp] theorem State.setCopy_draw : (s.setCopy n v).draw = s.draw := rfl
@[simp] theorem State.setCopy_out : (s.setCopy n v).out = s.out := rfl
@[simp] theorem State.setCopy_dict : (s.setCopy n v).dict = s.dict := rfl
@[simp] theorem State.setCopy_evt : (s.setCopy n v).evt = s.evt := rfl
@[simp] theorem State.setCopy_route : (s.setCopy n v).route = s.route := rfl
@[simp] theorem State.setCopy_cnt : (s.setCopy n v).cnt = s.cnt := rfl
@[simp] theorem State.setCopy_acc : (s.setCopy n v).acc = s.acc := rfl
@[simp] theorem State.setCopy_host : (s.setCopy n v).host = s.host := rfl
@[simp] theorem State.setCopy_dom : (s.setCopy n v).dom = s.dom := rfl
@[simp] theorem State.setCopy_wires : (s.setCopy n v).wires = s.wires := rfl
@[simp] theorem State.setCopy_proc : (s.setCopy n v).proc = s.proc := rfl
@[simp] theorem State.setCopy_mbox : (s.setCopy n v).mbox = s.mbox := rfl
@[simp] theorem State.setCopy_ports : (s.setCopy n v).ports = s.ports := rfl
@[simp] theorem State.setCopy_rules : (s.setCopy n v).rules = s.rules := rfl
@[simp] theorem State.setCopy_fdb : (s.setCopy n v).fdb = s.fdb := rfl
@[simp] theorem State.setCopy_flow : (s.setCopy n v).flow = s.flow := rfl
@[simp] theorem State.setCopy_egress : (s.setCopy n v).egress = s.egress := rfl
@[simp] theorem State.setCopy_queues : (s.setCopy n v).queues = s.queues := rfl
@[simp] theorem State.setCopy_rounds : (s.setCopy n v).rounds = s.rounds := rfl
@[simp] theorem State.setCopy_red : (s.setCopy n v).red = s.red := rfl
@[simp] theorem State.setCopy_split : (s.setCopy n v).split = s.split := rfl
@[simp] theorem State.setCopy_captured0 : (s.setCopy n v).captured0 = s.captured0 := rfl
@[simp] theorem State.setCopy_captured1 : (s.setCopy n v).captured1 = s.captured1 := rfl
@[simp] theorem State.setCopy_pair : (s.setCopy n v).pair = s.pair := rfl
@[simp] theorem State.setCopy_pow : (s.setCopy n v).pow = s.pow := rfl
@[simp] theorem State.setCopy_boot : (s.setCopy n v).boot = s.boot := rfl
@[simp] theorem State.setCopy_panel : (s.setCopy n v).panel = s.panel := rfl
@[simp] theorem State.setCopy_clock0 : (s.setCopy n v).clock0 = s.clock0 := rfl
@[simp] theorem State.setCopy_clock1 : (s.setCopy n v).clock1 = s.clock1 := rfl
@[simp] theorem State.setCopy_pending : (s.setCopy n v).pending = s.pending := rfl
@[simp] theorem State.setCopy_copy : (s.setCopy n v).copy n = some v := tfind_tput_same ..
theorem State.setCopy_copy_other {m : Nat} (h : m ≠ n) : (s.setCopy n v).copy m = s.copy m := tfind_tput_other _ _ _ _ h
end

/-! ### setQueue -/

section
variable (s : State) (n : Nat) (v : Queue)
@[simp] theorem State.setQueue_nv : (s.setQueue n v).nv = s.nv := rfl
@[simp] theorem State.setQueue_ao : (s.setQueue n v).ao = s.ao := rfl
@[simp] theorem State.setQueue_now : (s.setQueue n v).now = s.now := rfl
@[simp] theorem State.setQueue_draw : (s.setQueue n v).draw = s.draw := rfl
@[simp] theorem State.setQueue_out : (s.setQueue n v).out = s.out := rfl
@[simp] theorem State.setQueue_dict : (s.setQueue n v).dict = s.dict := rfl
@[simp] theorem State.setQueue_evt : (s.setQueue n v).evt = s.evt := rfl
@[simp] theorem State.setQueue_route : (s.setQueue n v).route = s.route := rfl
@[simp] theorem State.setQueue_cnt : (s.setQueue n v).cnt = s.cnt := rfl
@[simp] theorem State.setQueue_acc : (s.setQueue n v).acc = s.acc := rfl
@[simp] theorem State.setQueue_host : (s.setQueue n v).host = s.host := rfl
@[simp] theorem State.setQueue_dom : (s.setQueue n v).dom = s.dom := rfl
@[simp] theorem State.setQueue_wires : (s.setQueue n v).wires = s.wires := rfl
@[simp] theorem State.setQueue_proc : (s.setQueue n v).proc = s.proc := rfl
@[simp] theorem State.setQueue_mbox : (s.setQueue n v).mbox = s.mbox := rfl
@[simp] theorem State.setQueue_ports : (s.setQueue n v).ports = s.ports := rfl
@[simp] theorem State.setQueue_rules : (s.setQueue n v).rules = s.rules := rfl
@[simp] theorem State.setQueue_fdb : (s.setQueue n v).fdb = s.fdb := rfl
@[simp] theorem State.setQueue_flow : (s.setQueue n v).flow = s.flow := rfl
@[simp] theorem State.setQueue_buf : (s.setQueue n v).buf = s.buf := rfl
@[simp] theorem State.setQueue_egress : (s.setQueue n v).egress = s.egress := rfl
@[simp] theorem State.setQueue_rounds : (s.setQueue n v).rounds = s.rounds := rfl
@[simp] theorem State.setQueue_red : (s.setQueue n v).red = s.red := rfl
@[simp] theorem State.setQueue_split : (s.setQueue n v).split = s.split := rfl
@[simp] theorem State.setQueue_captured0 : (s.setQueue n v).captured0 = s.captured0 := rfl
@[simp] theorem State.setQueue_captured1 : (s.setQueue n v).captured1 = s.captured1 := rfl
@[simp] theorem State.setQueue_pair : (s.setQueue n v).pair = s.pair := rfl
@[simp] theorem State.setQueue_pow : (s.setQueue n v).pow = s.pow := rfl
@[simp] theorem State.setQueue_boot : (s.setQueue n v).boot = s.boot := rfl
@[simp] theorem State.setQueue_panel : (s.setQueue n v).panel = s.panel := rfl
@[simp] theorem State.setQueue_clock0 : (s.setQueue n v).clock0 = s.clock0 := rfl
@[simp] theorem State.setQueue_clock1 : (s.setQueue n v).clock1 = s.clock1 := rfl
@[simp] theorem State.setQueue_pending : (s.setQueue n v).pending = s.pending := rfl
@[simp] theorem State.setQueue_queue : (s.setQueue n v).queue n = v := tget_tset_same ..
theorem State.setQueue_queue_other {m : Nat} (h : m ≠ n) : (s.setQueue n v).queue m = s.queue m := tget_tset_other _ _ _ _ _ h
end

/-! ### setRound -/

section
variable (s : State) (p c : Nat) (l : List Nat)
@[simp] theorem State.setRound_nv : (s.setRound p c l).nv = s.nv := rfl
@[simp] theorem State.setRound_ao : (s.setRound p c l).ao = s.ao := rfl
@[simp] theorem State.setRound_now : (s.setRound p c l).now = s.now := rfl
@[simp] theorem State.setRound_draw : (s.setRound p c l).draw = s.draw := rfl
@[simp] theorem State.setRound_out : (s.setRound p c l).out = s.out := rfl
@[simp] theorem State.setRound_dict : (s.setRound p c l).dict = s.dict := rfl
@[simp] theorem State.setRound_evt : (s.setRound p c l).evt = s.evt := rfl
@[simp] theorem State.setRound_route : (s.setRound p c l).route = s.route := rfl
@[simp] theorem State.setRound_cnt : (s.setRound p c l).cnt = s.cnt := rfl
@[simp] theorem State.setRound_acc : (s.setRound p c l).acc = s.acc := rfl
@[simp] theorem State.setRound_host : (s.setRound p c l).host = s.host := rfl
@[simp] theorem State.setRound_dom : (s.setRound p c l).dom = s.dom := rfl
@[simp] theorem State.setRound_wires : (s.setRound p c l).wires = s.wires := rfl
@[simp] theorem State.setRound_proc : (s.setRound p c l).proc = s.proc := rfl
@[simp] theorem State.setRound_mbox : (s.setRound p c l).mbox = s.mbox := rfl
@[simp] theorem State.setRound_ports : (s.setRound p c l).ports = s.ports := rfl
@[simp] theorem State.setRound_rules : (s.setRound p c l).rules = s.rules := rfl
@[simp] theorem State.setRound_fdb : (s.setRound p c l).fdb = s.fdb := rfl
@[simp] theorem State.setRound_flow : (s.setRound p c l).flow = s.flow := rfl
@[simp] theorem State.setRound_buf : (s.setRound p c l).buf = s.buf := rfl
@[simp] theorem State.setRound_egress : (s.setRound p c l).egress = s.egress := rfl
@[simp] theorem State.setRound_queues : (s.setRound p c l).queues = s.queues := rfl
@[simp] theorem State.setRound_red : (s.setRound p c l).red = s.red := rfl
@[simp] theorem State.setRound_split : (s.setRound p c l).split = s.split := rfl
@[simp] theorem State.setRound_captured0 : (s.setRound p c l).captured0 = s.captured0 := rfl
@[simp] theorem State.setRound_captured1 : (s.setRound p c l).captured1 = s.captured1 := rfl
@[simp] theorem State.setRound_pair : (s.setRound p c l).pair = s.pair := rfl
@[simp] theorem State.setRound_pow : (s.setRound p c l).pow = s.pow := rfl
@[simp] theorem State.setRound_boot : (s.setRound p c l).boot = s.boot := rfl
@[simp] theorem State.setRound_panel : (s.setRound p c l).panel = s.panel := rfl
@[simp] theorem State.setRound_clock0 : (s.setRound p c l).clock0 = s.clock0 := rfl
@[simp] theorem State.setRound_clock1 : (s.setRound p c l).clock1 = s.clock1 := rfl
@[simp] theorem State.setRound_pending : (s.setRound p c l).pending = s.pending := rfl
end

/-! ### setCharge -/

section
variable (s : State) (n : Nat) (v : Charge)
@[simp] theorem State.setCharge_nv : (s.setCharge n v).nv = s.nv := rfl
@[simp] theorem State.setCharge_ao : (s.setCharge n v).ao = s.ao := rfl
@[simp] theorem State.setCharge_now : (s.setCharge n v).now = s.now := rfl
@[simp] theorem State.setCharge_draw : (s.setCharge n v).draw = s.draw := rfl
@[simp] theorem State.setCharge_out : (s.setCharge n v).out = s.out := rfl
@[simp] theorem State.setCharge_dict : (s.setCharge n v).dict = s.dict := rfl
@[simp] theorem State.setCharge_evt : (s.setCharge n v).evt = s.evt := rfl
@[simp] theorem State.setCharge_route : (s.setCharge n v).route = s.route := rfl
@[simp] theorem State.setCharge_cnt : (s.setCharge n v).cnt = s.cnt := rfl
@[simp] theorem State.setCharge_acc : (s.setCharge n v).acc = s.acc := rfl
@[simp] theorem State.setCharge_host : (s.setCharge n v).host = s.host := rfl
@[simp] theorem State.setCharge_dom : (s.setCharge n v).dom = s.dom := rfl
@[simp] theorem State.setCharge_wires : (s.setCharge n v).wires = s.wires := rfl
@[simp] theorem State.setCharge_proc : (s.setCharge n v).proc = s.proc := rfl
@[simp] theorem State.setCharge_mbox : (s.setCharge n v).mbox = s.mbox := rfl
@[simp] theorem State.setCharge_ports : (s.setCharge n v).ports = s.ports := rfl
@[simp] theorem State.setCharge_rules : (s.setCharge n v).rules = s.rules := rfl
@[simp] theorem State.setCharge_fdb : (s.setCharge n v).fdb = s.fdb := rfl
@[simp] theorem State.setCharge_flow : (s.setCharge n v).flow = s.flow := rfl
@[simp] theorem State.setCharge_egress : (s.setCharge n v).egress = s.egress := rfl
@[simp] theorem State.setCharge_queues : (s.setCharge n v).queues = s.queues := rfl
@[simp] theorem State.setCharge_rounds : (s.setCharge n v).rounds = s.rounds := rfl
@[simp] theorem State.setCharge_red : (s.setCharge n v).red = s.red := rfl
@[simp] theorem State.setCharge_split : (s.setCharge n v).split = s.split := rfl
@[simp] theorem State.setCharge_captured0 : (s.setCharge n v).captured0 = s.captured0 := rfl
@[simp] theorem State.setCharge_captured1 : (s.setCharge n v).captured1 = s.captured1 := rfl
@[simp] theorem State.setCharge_pair : (s.setCharge n v).pair = s.pair := rfl
@[simp] theorem State.setCharge_pow : (s.setCharge n v).pow = s.pow := rfl
@[simp] theorem State.setCharge_boot : (s.setCharge n v).boot = s.boot := rfl
@[simp] theorem State.setCharge_panel : (s.setCharge n v).panel = s.panel := rfl
@[simp] theorem State.setCharge_clock0 : (s.setCharge n v).clock0 = s.clock0 := rfl
@[simp] theorem State.setCharge_clock1 : (s.setCharge n v).clock1 = s.clock1 := rfl
@[simp] theorem State.setCharge_pending : (s.setCharge n v).pending = s.pending := rfl
end

/-! ### setFinish -/

section
variable (s : State) (n : Nat) (v : Finish)
@[simp] theorem State.setFinish_nv : (s.setFinish n v).nv = s.nv := rfl
@[simp] theorem State.setFinish_ao : (s.setFinish n v).ao = s.ao := rfl
@[simp] theorem State.setFinish_now : (s.setFinish n v).now = s.now := rfl
@[simp] theorem State.setFinish_draw : (s.setFinish n v).draw = s.draw := rfl
@[simp] theorem State.setFinish_out : (s.setFinish n v).out = s.out := rfl
@[simp] theorem State.setFinish_dict : (s.setFinish n v).dict = s.dict := rfl
@[simp] theorem State.setFinish_evt : (s.setFinish n v).evt = s.evt := rfl
@[simp] theorem State.setFinish_route : (s.setFinish n v).route = s.route := rfl
@[simp] theorem State.setFinish_cnt : (s.setFinish n v).cnt = s.cnt := rfl
@[simp] theorem State.setFinish_acc : (s.setFinish n v).acc = s.acc := rfl
@[simp] theorem State.setFinish_host : (s.setFinish n v).host = s.host := rfl
@[simp] theorem State.setFinish_dom : (s.setFinish n v).dom = s.dom := rfl
@[simp] theorem State.setFinish_wires : (s.setFinish n v).wires = s.wires := rfl
@[simp] theorem State.setFinish_proc : (s.setFinish n v).proc = s.proc := rfl
@[simp] theorem State.setFinish_mbox : (s.setFinish n v).mbox = s.mbox := rfl
@[simp] theorem State.setFinish_ports : (s.setFinish n v).ports = s.ports := rfl
@[simp] theorem State.setFinish_rules : (s.setFinish n v).rules = s.rules := rfl
@[simp] theorem State.setFinish_fdb : (s.setFinish n v).fdb = s.fdb := rfl
@[simp] theorem State.setFinish_flow : (s.setFinish n v).flow = s.flow := rfl
@[simp] theorem State.setFinish_egress : (s.setFinish n v).egress = s.egress := rfl
@[simp] theorem State.setFinish_queues : (s.setFinish n v).queues = s.queues := rfl
@[simp] theorem State.setFinish_rounds : (s.setFinish n v).rounds = s.rounds := rfl
@[simp] theorem State.setFinish_red : (s.setFinish n v).red = s.red := rfl
@[simp] theorem State.setFinish_split : (s.setFinish n v).split = s.split := rfl
@[simp] theorem State.setFinish_captured0 : (s.setFinish n v).captured0 = s.captured0 := rfl
@[simp] theorem State.setFinish_captured1 : (s.setFinish n v).captured1 = s.captured1 := rfl
@[simp] theorem State.setFinish_pair : (s.setFinish n v).pair = s.pair := rfl
@[simp] theorem State.setFinish_pow : (s.setFinish n v).pow = s.pow := rfl
@[simp] theorem State.setFinish_boot : (s.setFinish n v).boot = s.boot := rfl
@[simp] theorem State.setFinish_panel : (s.setFinish n v).panel = s.panel := rfl
@[simp] theorem State.setFinish_clock0 : (s.setFinish n v).clock0 = s.clock0 := rfl
@[simp] theorem State.setFinish_clock1 : (s.setFinish n v).clock1 = s.clock1 := rfl
@[simp] theorem State.setFinish_pending : (s.setFinish n v).pending = s.pending := rfl
@[simp] theorem State.setFinish_finish : (s.setFinish n v).finish n = v := tget_tset_same ..
theorem State.setFinish_finish_other {m : Nat} (h : m ≠ n) : (s.setFinish n v).finish m = s.finish m := tget_tset_other _ _ _ _ _ h
end

/-! ### setHead -/

section
variable (s : State) (n : Nat) (v : BitVec 512)
@[simp] theorem State.setHead_nv : (s.setHead n v).nv = s.nv := rfl
@[simp] theorem State.setHead_ao : (s.setHead n v).ao = s.ao := rfl
@[simp] theorem State.setHead_now : (s.setHead n v).now = s.now := rfl
@[simp] theorem State.setHead_draw : (s.setHead n v).draw = s.draw := rfl
@[simp] theorem State.setHead_out : (s.setHead n v).out = s.out := rfl
@[simp] theorem State.setHead_dict : (s.setHead n v).dict = s.dict := rfl
@[simp] theorem State.setHead_evt : (s.setHead n v).evt = s.evt := rfl
@[simp] theorem State.setHead_route : (s.setHead n v).route = s.route := rfl
@[simp] theorem State.setHead_cnt : (s.setHead n v).cnt = s.cnt := rfl
@[simp] theorem State.setHead_acc : (s.setHead n v).acc = s.acc := rfl
@[simp] theorem State.setHead_host : (s.setHead n v).host = s.host := rfl
@[simp] theorem State.setHead_dom : (s.setHead n v).dom = s.dom := rfl
@[simp] theorem State.setHead_wires : (s.setHead n v).wires = s.wires := rfl
@[simp] theorem State.setHead_proc : (s.setHead n v).proc = s.proc := rfl
@[simp] theorem State.setHead_mbox : (s.setHead n v).mbox = s.mbox := rfl
@[simp] theorem State.setHead_ports : (s.setHead n v).ports = s.ports := rfl
@[simp] theorem State.setHead_rules : (s.setHead n v).rules = s.rules := rfl
@[simp] theorem State.setHead_fdb : (s.setHead n v).fdb = s.fdb := rfl
@[simp] theorem State.setHead_buf : (s.setHead n v).buf = s.buf := rfl
@[simp] theorem State.setHead_egress : (s.setHead n v).egress = s.egress := rfl
@[simp] theorem State.setHead_queues : (s.setHead n v).queues = s.queues := rfl
@[simp] theorem State.setHead_rounds : (s.setHead n v).rounds = s.rounds := rfl
@[simp] theorem State.setHead_red : (s.setHead n v).red = s.red := rfl
@[simp] theorem State.setHead_split : (s.setHead n v).split = s.split := rfl
@[simp] theorem State.setHead_captured0 : (s.setHead n v).captured0 = s.captured0 := rfl
@[simp] theorem State.setHead_captured1 : (s.setHead n v).captured1 = s.captured1 := rfl
@[simp] theorem State.setHead_pair : (s.setHead n v).pair = s.pair := rfl
@[simp] theorem State.setHead_pow : (s.setHead n v).pow = s.pow := rfl
@[simp] theorem State.setHead_boot : (s.setHead n v).boot = s.boot := rfl
@[simp] theorem State.setHead_panel : (s.setHead n v).panel = s.panel := rfl
@[simp] theorem State.setHead_clock0 : (s.setHead n v).clock0 = s.clock0 := rfl
@[simp] theorem State.setHead_clock1 : (s.setHead n v).clock1 = s.clock1 := rfl
@[simp] theorem State.setHead_pending : (s.setHead n v).pending = s.pending := rfl
@[simp] theorem State.setHead_headAt : (s.setHead n v).headAt n = v := tget_tset_same ..
theorem State.setHead_headAt_other {m : Nat} (h : m ≠ n) : (s.setHead n v).headAt m = s.headAt m := tget_tset_other _ _ _ _ _ h
end

/-! ### setBinding -/

section
variable (s : State) (n : Nat) (v : BitVec 512)
@[simp] theorem State.setBinding_nv : (s.setBinding n v).nv = s.nv := rfl
@[simp] theorem State.setBinding_ao : (s.setBinding n v).ao = s.ao := rfl
@[simp] theorem State.setBinding_now : (s.setBinding n v).now = s.now := rfl
@[simp] theorem State.setBinding_draw : (s.setBinding n v).draw = s.draw := rfl
@[simp] theorem State.setBinding_out : (s.setBinding n v).out = s.out := rfl
@[simp] theorem State.setBinding_dict : (s.setBinding n v).dict = s.dict := rfl
@[simp] theorem State.setBinding_evt : (s.setBinding n v).evt = s.evt := rfl
@[simp] theorem State.setBinding_route : (s.setBinding n v).route = s.route := rfl
@[simp] theorem State.setBinding_cnt : (s.setBinding n v).cnt = s.cnt := rfl
@[simp] theorem State.setBinding_acc : (s.setBinding n v).acc = s.acc := rfl
@[simp] theorem State.setBinding_host : (s.setBinding n v).host = s.host := rfl
@[simp] theorem State.setBinding_dom : (s.setBinding n v).dom = s.dom := rfl
@[simp] theorem State.setBinding_wires : (s.setBinding n v).wires = s.wires := rfl
@[simp] theorem State.setBinding_proc : (s.setBinding n v).proc = s.proc := rfl
@[simp] theorem State.setBinding_mbox : (s.setBinding n v).mbox = s.mbox := rfl
@[simp] theorem State.setBinding_ports : (s.setBinding n v).ports = s.ports := rfl
@[simp] theorem State.setBinding_rules : (s.setBinding n v).rules = s.rules := rfl
@[simp] theorem State.setBinding_fdb : (s.setBinding n v).fdb = s.fdb := rfl
@[simp] theorem State.setBinding_buf : (s.setBinding n v).buf = s.buf := rfl
@[simp] theorem State.setBinding_egress : (s.setBinding n v).egress = s.egress := rfl
@[simp] theorem State.setBinding_queues : (s.setBinding n v).queues = s.queues := rfl
@[simp] theorem State.setBinding_rounds : (s.setBinding n v).rounds = s.rounds := rfl
@[simp] theorem State.setBinding_red : (s.setBinding n v).red = s.red := rfl
@[simp] theorem State.setBinding_split : (s.setBinding n v).split = s.split := rfl
@[simp] theorem State.setBinding_captured0 : (s.setBinding n v).captured0 = s.captured0 := rfl
@[simp] theorem State.setBinding_captured1 : (s.setBinding n v).captured1 = s.captured1 := rfl
@[simp] theorem State.setBinding_pair : (s.setBinding n v).pair = s.pair := rfl
@[simp] theorem State.setBinding_pow : (s.setBinding n v).pow = s.pow := rfl
@[simp] theorem State.setBinding_boot : (s.setBinding n v).boot = s.boot := rfl
@[simp] theorem State.setBinding_panel : (s.setBinding n v).panel = s.panel := rfl
@[simp] theorem State.setBinding_clock0 : (s.setBinding n v).clock0 = s.clock0 := rfl
@[simp] theorem State.setBinding_clock1 : (s.setBinding n v).clock1 = s.clock1 := rfl
@[simp] theorem State.setBinding_pending : (s.setBinding n v).pending = s.pending := rfl
@[simp] theorem State.setBinding_binding : (s.setBinding n v).binding n = v := tget_tset_same ..
theorem State.setBinding_binding_other {m : Nat} (h : m ≠ n) : (s.setBinding n v).binding m = s.binding m := tget_tset_other _ _ _ _ _ h
end

/-! ### setBack -/

section
variable (s : State) (n : Nat) (v : BitVec 32)
@[simp] theorem State.setBack_nv : (s.setBack n v).nv = s.nv := rfl
@[simp] theorem State.setBack_ao : (s.setBack n v).ao = s.ao := rfl
@[simp] theorem State.setBack_now : (s.setBack n v).now = s.now := rfl
@[simp] theorem State.setBack_draw : (s.setBack n v).draw = s.draw := rfl
@[simp] theorem State.setBack_out : (s.setBack n v).out = s.out := rfl
@[simp] theorem State.setBack_dict : (s.setBack n v).dict = s.dict := rfl
@[simp] theorem State.setBack_evt : (s.setBack n v).evt = s.evt := rfl
@[simp] theorem State.setBack_route : (s.setBack n v).route = s.route := rfl
@[simp] theorem State.setBack_cnt : (s.setBack n v).cnt = s.cnt := rfl
@[simp] theorem State.setBack_acc : (s.setBack n v).acc = s.acc := rfl
@[simp] theorem State.setBack_host : (s.setBack n v).host = s.host := rfl
@[simp] theorem State.setBack_dom : (s.setBack n v).dom = s.dom := rfl
@[simp] theorem State.setBack_wires : (s.setBack n v).wires = s.wires := rfl
@[simp] theorem State.setBack_proc : (s.setBack n v).proc = s.proc := rfl
@[simp] theorem State.setBack_mbox : (s.setBack n v).mbox = s.mbox := rfl
@[simp] theorem State.setBack_ports : (s.setBack n v).ports = s.ports := rfl
@[simp] theorem State.setBack_rules : (s.setBack n v).rules = s.rules := rfl
@[simp] theorem State.setBack_fdb : (s.setBack n v).fdb = s.fdb := rfl
@[simp] theorem State.setBack_buf : (s.setBack n v).buf = s.buf := rfl
@[simp] theorem State.setBack_egress : (s.setBack n v).egress = s.egress := rfl
@[simp] theorem State.setBack_queues : (s.setBack n v).queues = s.queues := rfl
@[simp] theorem State.setBack_rounds : (s.setBack n v).rounds = s.rounds := rfl
@[simp] theorem State.setBack_red : (s.setBack n v).red = s.red := rfl
@[simp] theorem State.setBack_split : (s.setBack n v).split = s.split := rfl
@[simp] theorem State.setBack_captured0 : (s.setBack n v).captured0 = s.captured0 := rfl
@[simp] theorem State.setBack_captured1 : (s.setBack n v).captured1 = s.captured1 := rfl
@[simp] theorem State.setBack_pair : (s.setBack n v).pair = s.pair := rfl
@[simp] theorem State.setBack_pow : (s.setBack n v).pow = s.pow := rfl
@[simp] theorem State.setBack_boot : (s.setBack n v).boot = s.boot := rfl
@[simp] theorem State.setBack_panel : (s.setBack n v).panel = s.panel := rfl
@[simp] theorem State.setBack_clock0 : (s.setBack n v).clock0 = s.clock0 := rfl
@[simp] theorem State.setBack_clock1 : (s.setBack n v).clock1 = s.clock1 := rfl
@[simp] theorem State.setBack_pending : (s.setBack n v).pending = s.pending := rfl
end

/-! ### setShaper -/

section
variable (s : State) (p c : Nat) (v : Shaper)
@[simp] theorem State.setShaper_nv : (s.setShaper p c v).nv = s.nv := rfl
@[simp] theorem State.setShaper_ao : (s.setShaper p c v).ao = s.ao := rfl
@[simp] theorem State.setShaper_now : (s.setShaper p c v).now = s.now := rfl
@[simp] theorem State.setShaper_draw : (s.setShaper p c v).draw = s.draw := rfl
@[simp] theorem State.setShaper_out : (s.setShaper p c v).out = s.out := rfl
@[simp] theorem State.setShaper_dict : (s.setShaper p c v).dict = s.dict := rfl
@[simp] theorem State.setShaper_evt : (s.setShaper p c v).evt = s.evt := rfl
@[simp] theorem State.setShaper_route : (s.setShaper p c v).route = s.route := rfl
@[simp] theorem State.setShaper_cnt : (s.setShaper p c v).cnt = s.cnt := rfl
@[simp] theorem State.setShaper_acc : (s.setShaper p c v).acc = s.acc := rfl
@[simp] theorem State.setShaper_host : (s.setShaper p c v).host = s.host := rfl
@[simp] theorem State.setShaper_dom : (s.setShaper p c v).dom = s.dom := rfl
@[simp] theorem State.setShaper_wires : (s.setShaper p c v).wires = s.wires := rfl
@[simp] theorem State.setShaper_proc : (s.setShaper p c v).proc = s.proc := rfl
@[simp] theorem State.setShaper_mbox : (s.setShaper p c v).mbox = s.mbox := rfl
@[simp] theorem State.setShaper_ports : (s.setShaper p c v).ports = s.ports := rfl
@[simp] theorem State.setShaper_rules : (s.setShaper p c v).rules = s.rules := rfl
@[simp] theorem State.setShaper_fdb : (s.setShaper p c v).fdb = s.fdb := rfl
@[simp] theorem State.setShaper_flow : (s.setShaper p c v).flow = s.flow := rfl
@[simp] theorem State.setShaper_buf : (s.setShaper p c v).buf = s.buf := rfl
@[simp] theorem State.setShaper_queues : (s.setShaper p c v).queues = s.queues := rfl
@[simp] theorem State.setShaper_rounds : (s.setShaper p c v).rounds = s.rounds := rfl
@[simp] theorem State.setShaper_red : (s.setShaper p c v).red = s.red := rfl
@[simp] theorem State.setShaper_split : (s.setShaper p c v).split = s.split := rfl
@[simp] theorem State.setShaper_captured0 : (s.setShaper p c v).captured0 = s.captured0 := rfl
@[simp] theorem State.setShaper_captured1 : (s.setShaper p c v).captured1 = s.captured1 := rfl
@[simp] theorem State.setShaper_pair : (s.setShaper p c v).pair = s.pair := rfl
@[simp] theorem State.setShaper_pow : (s.setShaper p c v).pow = s.pow := rfl
@[simp] theorem State.setShaper_boot : (s.setShaper p c v).boot = s.boot := rfl
@[simp] theorem State.setShaper_panel : (s.setShaper p c v).panel = s.panel := rfl
@[simp] theorem State.setShaper_clock0 : (s.setShaper p c v).clock0 = s.clock0 := rfl
@[simp] theorem State.setShaper_clock1 : (s.setShaper p c v).clock1 = s.clock1 := rfl
@[simp] theorem State.setShaper_pending : (s.setShaper p c v).pending = s.pending := rfl
end

/-! ### setChan -/

section
variable (s : State) (n : Nat) (v : Channel)
@[simp] theorem State.setChan_nv : (s.setChan n v).nv = s.nv := rfl
@[simp] theorem State.setChan_ao : (s.setChan n v).ao = s.ao := rfl
@[simp] theorem State.setChan_now : (s.setChan n v).now = s.now := rfl
@[simp] theorem State.setChan_draw : (s.setChan n v).draw = s.draw := rfl
@[simp] theorem State.setChan_out : (s.setChan n v).out = s.out := rfl
@[simp] theorem State.setChan_dict : (s.setChan n v).dict = s.dict := rfl
@[simp] theorem State.setChan_evt : (s.setChan n v).evt = s.evt := rfl
@[simp] theorem State.setChan_route : (s.setChan n v).route = s.route := rfl
@[simp] theorem State.setChan_cnt : (s.setChan n v).cnt = s.cnt := rfl
@[simp] theorem State.setChan_acc : (s.setChan n v).acc = s.acc := rfl
@[simp] theorem State.setChan_host : (s.setChan n v).host = s.host := rfl
@[simp] theorem State.setChan_dom : (s.setChan n v).dom = s.dom := rfl
@[simp] theorem State.setChan_wires : (s.setChan n v).wires = s.wires := rfl
@[simp] theorem State.setChan_proc : (s.setChan n v).proc = s.proc := rfl
@[simp] theorem State.setChan_ports : (s.setChan n v).ports = s.ports := rfl
@[simp] theorem State.setChan_rules : (s.setChan n v).rules = s.rules := rfl
@[simp] theorem State.setChan_fdb : (s.setChan n v).fdb = s.fdb := rfl
@[simp] theorem State.setChan_flow : (s.setChan n v).flow = s.flow := rfl
@[simp] theorem State.setChan_buf : (s.setChan n v).buf = s.buf := rfl
@[simp] theorem State.setChan_egress : (s.setChan n v).egress = s.egress := rfl
@[simp] theorem State.setChan_queues : (s.setChan n v).queues = s.queues := rfl
@[simp] theorem State.setChan_rounds : (s.setChan n v).rounds = s.rounds := rfl
@[simp] theorem State.setChan_red : (s.setChan n v).red = s.red := rfl
@[simp] theorem State.setChan_split : (s.setChan n v).split = s.split := rfl
@[simp] theorem State.setChan_captured0 : (s.setChan n v).captured0 = s.captured0 := rfl
@[simp] theorem State.setChan_captured1 : (s.setChan n v).captured1 = s.captured1 := rfl
@[simp] theorem State.setChan_pair : (s.setChan n v).pair = s.pair := rfl
@[simp] theorem State.setChan_pow : (s.setChan n v).pow = s.pow := rfl
@[simp] theorem State.setChan_boot : (s.setChan n v).boot = s.boot := rfl
@[simp] theorem State.setChan_panel : (s.setChan n v).panel = s.panel := rfl
@[simp] theorem State.setChan_clock0 : (s.setChan n v).clock0 = s.clock0 := rfl
@[simp] theorem State.setChan_clock1 : (s.setChan n v).clock1 = s.clock1 := rfl
@[simp] theorem State.setChan_pending : (s.setChan n v).pending = s.pending := rfl
@[simp] theorem State.setChan_chan : (s.setChan n v).chan n = v := tget_tset_same ..
theorem State.setChan_chan_other {m : Nat} (h : m ≠ n) : (s.setChan n v).chan m = s.chan m := tget_tset_other _ _ _ _ _ h
end

/-! ### setCore -/

section
variable (s : State) (n : Nat) (v : Core)
@[simp] theorem State.setCore_nv : (s.setCore n v).nv = s.nv := rfl
@[simp] theorem State.setCore_ao : (s.setCore n v).ao = s.ao := rfl
@[simp] theorem State.setCore_now : (s.setCore n v).now = s.now := rfl
@[simp] theorem State.setCore_draw : (s.setCore n v).draw = s.draw := rfl
@[simp] theorem State.setCore_out : (s.setCore n v).out = s.out := rfl
@[simp] theorem State.setCore_dict : (s.setCore n v).dict = s.dict := rfl
@[simp] theorem State.setCore_evt : (s.setCore n v).evt = s.evt := rfl
@[simp] theorem State.setCore_route : (s.setCore n v).route = s.route := rfl
@[simp] theorem State.setCore_cnt : (s.setCore n v).cnt = s.cnt := rfl
@[simp] theorem State.setCore_acc : (s.setCore n v).acc = s.acc := rfl
@[simp] theorem State.setCore_host : (s.setCore n v).host = s.host := rfl
@[simp] theorem State.setCore_dom : (s.setCore n v).dom = s.dom := rfl
@[simp] theorem State.setCore_wires : (s.setCore n v).wires = s.wires := rfl
@[simp] theorem State.setCore_mbox : (s.setCore n v).mbox = s.mbox := rfl
@[simp] theorem State.setCore_ports : (s.setCore n v).ports = s.ports := rfl
@[simp] theorem State.setCore_rules : (s.setCore n v).rules = s.rules := rfl
@[simp] theorem State.setCore_fdb : (s.setCore n v).fdb = s.fdb := rfl
@[simp] theorem State.setCore_flow : (s.setCore n v).flow = s.flow := rfl
@[simp] theorem State.setCore_buf : (s.setCore n v).buf = s.buf := rfl
@[simp] theorem State.setCore_egress : (s.setCore n v).egress = s.egress := rfl
@[simp] theorem State.setCore_queues : (s.setCore n v).queues = s.queues := rfl
@[simp] theorem State.setCore_rounds : (s.setCore n v).rounds = s.rounds := rfl
@[simp] theorem State.setCore_red : (s.setCore n v).red = s.red := rfl
@[simp] theorem State.setCore_split : (s.setCore n v).split = s.split := rfl
@[simp] theorem State.setCore_captured0 : (s.setCore n v).captured0 = s.captured0 := rfl
@[simp] theorem State.setCore_captured1 : (s.setCore n v).captured1 = s.captured1 := rfl
@[simp] theorem State.setCore_pair : (s.setCore n v).pair = s.pair := rfl
@[simp] theorem State.setCore_pow : (s.setCore n v).pow = s.pow := rfl
@[simp] theorem State.setCore_boot : (s.setCore n v).boot = s.boot := rfl
@[simp] theorem State.setCore_panel : (s.setCore n v).panel = s.panel := rfl
@[simp] theorem State.setCore_clock0 : (s.setCore n v).clock0 = s.clock0 := rfl
@[simp] theorem State.setCore_clock1 : (s.setCore n v).clock1 = s.clock1 := rfl
@[simp] theorem State.setCore_pending : (s.setCore n v).pending = s.pending := rfl
@[simp] theorem State.setCore_core : (s.setCore n v).core n = v := tget_tset_same ..
theorem State.setCore_core_other {m : Nat} (h : m ≠ n) : (s.setCore n v).core m = s.core m := tget_tset_other _ _ _ _ _ h
end

/-! ### setRecovery -/

section
variable (s : State) (n : Nat) (v : History)
@[simp] theorem State.setRecovery_nv : (s.setRecovery n v).nv = s.nv := rfl
@[simp] theorem State.setRecovery_ao : (s.setRecovery n v).ao = s.ao := rfl
@[simp] theorem State.setRecovery_now : (s.setRecovery n v).now = s.now := rfl
@[simp] theorem State.setRecovery_draw : (s.setRecovery n v).draw = s.draw := rfl
@[simp] theorem State.setRecovery_out : (s.setRecovery n v).out = s.out := rfl
@[simp] theorem State.setRecovery_dict : (s.setRecovery n v).dict = s.dict := rfl
@[simp] theorem State.setRecovery_evt : (s.setRecovery n v).evt = s.evt := rfl
@[simp] theorem State.setRecovery_route : (s.setRecovery n v).route = s.route := rfl
@[simp] theorem State.setRecovery_cnt : (s.setRecovery n v).cnt = s.cnt := rfl
@[simp] theorem State.setRecovery_acc : (s.setRecovery n v).acc = s.acc := rfl
@[simp] theorem State.setRecovery_host : (s.setRecovery n v).host = s.host := rfl
@[simp] theorem State.setRecovery_dom : (s.setRecovery n v).dom = s.dom := rfl
@[simp] theorem State.setRecovery_wires : (s.setRecovery n v).wires = s.wires := rfl
@[simp] theorem State.setRecovery_proc : (s.setRecovery n v).proc = s.proc := rfl
@[simp] theorem State.setRecovery_mbox : (s.setRecovery n v).mbox = s.mbox := rfl
@[simp] theorem State.setRecovery_ports : (s.setRecovery n v).ports = s.ports := rfl
@[simp] theorem State.setRecovery_rules : (s.setRecovery n v).rules = s.rules := rfl
@[simp] theorem State.setRecovery_fdb : (s.setRecovery n v).fdb = s.fdb := rfl
@[simp] theorem State.setRecovery_flow : (s.setRecovery n v).flow = s.flow := rfl
@[simp] theorem State.setRecovery_buf : (s.setRecovery n v).buf = s.buf := rfl
@[simp] theorem State.setRecovery_egress : (s.setRecovery n v).egress = s.egress := rfl
@[simp] theorem State.setRecovery_queues : (s.setRecovery n v).queues = s.queues := rfl
@[simp] theorem State.setRecovery_rounds : (s.setRecovery n v).rounds = s.rounds := rfl
@[simp] theorem State.setRecovery_split : (s.setRecovery n v).split = s.split := rfl
@[simp] theorem State.setRecovery_captured0 : (s.setRecovery n v).captured0 = s.captured0 := rfl
@[simp] theorem State.setRecovery_captured1 : (s.setRecovery n v).captured1 = s.captured1 := rfl
@[simp] theorem State.setRecovery_pair : (s.setRecovery n v).pair = s.pair := rfl
@[simp] theorem State.setRecovery_pow : (s.setRecovery n v).pow = s.pow := rfl
@[simp] theorem State.setRecovery_boot : (s.setRecovery n v).boot = s.boot := rfl
@[simp] theorem State.setRecovery_panel : (s.setRecovery n v).panel = s.panel := rfl
@[simp] theorem State.setRecovery_clock0 : (s.setRecovery n v).clock0 = s.clock0 := rfl
@[simp] theorem State.setRecovery_clock1 : (s.setRecovery n v).clock1 = s.clock1 := rfl
@[simp] theorem State.setRecovery_pending : (s.setRecovery n v).pending = s.pending := rfl
@[simp] theorem State.setRecovery_recoveryOf : (s.setRecovery n v).recoveryOf n = v := tget_tset_same ..
theorem State.setRecovery_recoveryOf_other {m : Nat} (h : m ≠ n) : (s.setRecovery n v).recoveryOf m = s.recoveryOf m := tget_tset_other _ _ _ _ _ h
end

/-! ### setNode -/

section
variable (s : State) (n : Nat) (v : Node)
@[simp] theorem State.setNode_nv : (s.setNode n v).nv = s.nv := rfl
@[simp] theorem State.setNode_ao : (s.setNode n v).ao = s.ao := rfl
@[simp] theorem State.setNode_now : (s.setNode n v).now = s.now := rfl
@[simp] theorem State.setNode_draw : (s.setNode n v).draw = s.draw := rfl
@[simp] theorem State.setNode_out : (s.setNode n v).out = s.out := rfl
@[simp] theorem State.setNode_dict : (s.setNode n v).dict = s.dict := rfl
@[simp] theorem State.setNode_evt : (s.setNode n v).evt = s.evt := rfl
@[simp] theorem State.setNode_route : (s.setNode n v).route = s.route := rfl
@[simp] theorem State.setNode_cnt : (s.setNode n v).cnt = s.cnt := rfl
@[simp] theorem State.setNode_acc : (s.setNode n v).acc = s.acc := rfl
@[simp] theorem State.setNode_host : (s.setNode n v).host = s.host := rfl
@[simp] theorem State.setNode_dom : (s.setNode n v).dom = s.dom := rfl
@[simp] theorem State.setNode_wires : (s.setNode n v).wires = s.wires := rfl
@[simp] theorem State.setNode_proc : (s.setNode n v).proc = s.proc := rfl
@[simp] theorem State.setNode_mbox : (s.setNode n v).mbox = s.mbox := rfl
@[simp] theorem State.setNode_ports : (s.setNode n v).ports = s.ports := rfl
@[simp] theorem State.setNode_rules : (s.setNode n v).rules = s.rules := rfl
@[simp] theorem State.setNode_fdb : (s.setNode n v).fdb = s.fdb := rfl
@[simp] theorem State.setNode_flow : (s.setNode n v).flow = s.flow := rfl
@[simp] theorem State.setNode_buf : (s.setNode n v).buf = s.buf := rfl
@[simp] theorem State.setNode_egress : (s.setNode n v).egress = s.egress := rfl
@[simp] theorem State.setNode_queues : (s.setNode n v).queues = s.queues := rfl
@[simp] theorem State.setNode_rounds : (s.setNode n v).rounds = s.rounds := rfl
@[simp] theorem State.setNode_split : (s.setNode n v).split = s.split := rfl
@[simp] theorem State.setNode_captured0 : (s.setNode n v).captured0 = s.captured0 := rfl
@[simp] theorem State.setNode_captured1 : (s.setNode n v).captured1 = s.captured1 := rfl
@[simp] theorem State.setNode_pair : (s.setNode n v).pair = s.pair := rfl
@[simp] theorem State.setNode_pow : (s.setNode n v).pow = s.pow := rfl
@[simp] theorem State.setNode_boot : (s.setNode n v).boot = s.boot := rfl
@[simp] theorem State.setNode_panel : (s.setNode n v).panel = s.panel := rfl
@[simp] theorem State.setNode_clock0 : (s.setNode n v).clock0 = s.clock0 := rfl
@[simp] theorem State.setNode_clock1 : (s.setNode n v).clock1 = s.clock1 := rfl
@[simp] theorem State.setNode_pending : (s.setNode n v).pending = s.pending := rfl
end

/-! ### setCgroup -/

section
variable (s : State) (n : Nat) (v : CommitGroup)
@[simp] theorem State.setCgroup_nv : (s.setCgroup n v).nv = s.nv := rfl
@[simp] theorem State.setCgroup_ao : (s.setCgroup n v).ao = s.ao := rfl
@[simp] theorem State.setCgroup_now : (s.setCgroup n v).now = s.now := rfl
@[simp] theorem State.setCgroup_draw : (s.setCgroup n v).draw = s.draw := rfl
@[simp] theorem State.setCgroup_out : (s.setCgroup n v).out = s.out := rfl
@[simp] theorem State.setCgroup_evt : (s.setCgroup n v).evt = s.evt := rfl
@[simp] theorem State.setCgroup_route : (s.setCgroup n v).route = s.route := rfl
@[simp] theorem State.setCgroup_cnt : (s.setCgroup n v).cnt = s.cnt := rfl
@[simp] theorem State.setCgroup_acc : (s.setCgroup n v).acc = s.acc := rfl
@[simp] theorem State.setCgroup_host : (s.setCgroup n v).host = s.host := rfl
@[simp] theorem State.setCgroup_dom : (s.setCgroup n v).dom = s.dom := rfl
@[simp] theorem State.setCgroup_wires : (s.setCgroup n v).wires = s.wires := rfl
@[simp] theorem State.setCgroup_proc : (s.setCgroup n v).proc = s.proc := rfl
@[simp] theorem State.setCgroup_mbox : (s.setCgroup n v).mbox = s.mbox := rfl
@[simp] theorem State.setCgroup_ports : (s.setCgroup n v).ports = s.ports := rfl
@[simp] theorem State.setCgroup_rules : (s.setCgroup n v).rules = s.rules := rfl
@[simp] theorem State.setCgroup_fdb : (s.setCgroup n v).fdb = s.fdb := rfl
@[simp] theorem State.setCgroup_flow : (s.setCgroup n v).flow = s.flow := rfl
@[simp] theorem State.setCgroup_buf : (s.setCgroup n v).buf = s.buf := rfl
@[simp] theorem State.setCgroup_egress : (s.setCgroup n v).egress = s.egress := rfl
@[simp] theorem State.setCgroup_queues : (s.setCgroup n v).queues = s.queues := rfl
@[simp] theorem State.setCgroup_rounds : (s.setCgroup n v).rounds = s.rounds := rfl
@[simp] theorem State.setCgroup_red : (s.setCgroup n v).red = s.red := rfl
@[simp] theorem State.setCgroup_split : (s.setCgroup n v).split = s.split := rfl
@[simp] theorem State.setCgroup_captured0 : (s.setCgroup n v).captured0 = s.captured0 := rfl
@[simp] theorem State.setCgroup_captured1 : (s.setCgroup n v).captured1 = s.captured1 := rfl
@[simp] theorem State.setCgroup_pair : (s.setCgroup n v).pair = s.pair := rfl
@[simp] theorem State.setCgroup_pow : (s.setCgroup n v).pow = s.pow := rfl
@[simp] theorem State.setCgroup_boot : (s.setCgroup n v).boot = s.boot := rfl
@[simp] theorem State.setCgroup_panel : (s.setCgroup n v).panel = s.panel := rfl
@[simp] theorem State.setCgroup_clock0 : (s.setCgroup n v).clock0 = s.clock0 := rfl
@[simp] theorem State.setCgroup_clock1 : (s.setCgroup n v).clock1 = s.clock1 := rfl
@[simp] theorem State.setCgroup_pending : (s.setCgroup n v).pending = s.pending := rfl
@[simp] theorem State.setCgroup_cgroup : (s.setCgroup n v).cgroup n = v := tget_tset_same ..
theorem State.setCgroup_cgroup_other {m : Nat} (h : m ≠ n) : (s.setCgroup n v).cgroup m = s.cgroup m := tget_tset_other _ _ _ _ _ h
end

/-! ### setWire -/

section
variable (s : State) (n : Nat) (v : Wire)
@[simp] theorem State.setWire_nv : (s.setWire n v).nv = s.nv := rfl
@[simp] theorem State.setWire_ao : (s.setWire n v).ao = s.ao := rfl
@[simp] theorem State.setWire_now : (s.setWire n v).now = s.now := rfl
@[simp] theorem State.setWire_draw : (s.setWire n v).draw = s.draw := rfl
@[simp] theorem State.setWire_out : (s.setWire n v).out = s.out := rfl
@[simp] theorem State.setWire_dict : (s.setWire n v).dict = s.dict := rfl
@[simp] theorem State.setWire_evt : (s.setWire n v).evt = s.evt := rfl
@[simp] theorem State.setWire_route : (s.setWire n v).route = s.route := rfl
@[simp] theorem State.setWire_cnt : (s.setWire n v).cnt = s.cnt := rfl
@[simp] theorem State.setWire_acc : (s.setWire n v).acc = s.acc := rfl
@[simp] theorem State.setWire_host : (s.setWire n v).host = s.host := rfl
@[simp] theorem State.setWire_dom : (s.setWire n v).dom = s.dom := rfl
@[simp] theorem State.setWire_proc : (s.setWire n v).proc = s.proc := rfl
@[simp] theorem State.setWire_mbox : (s.setWire n v).mbox = s.mbox := rfl
@[simp] theorem State.setWire_ports : (s.setWire n v).ports = s.ports := rfl
@[simp] theorem State.setWire_rules : (s.setWire n v).rules = s.rules := rfl
@[simp] theorem State.setWire_fdb : (s.setWire n v).fdb = s.fdb := rfl
@[simp] theorem State.setWire_flow : (s.setWire n v).flow = s.flow := rfl
@[simp] theorem State.setWire_buf : (s.setWire n v).buf = s.buf := rfl
@[simp] theorem State.setWire_egress : (s.setWire n v).egress = s.egress := rfl
@[simp] theorem State.setWire_queues : (s.setWire n v).queues = s.queues := rfl
@[simp] theorem State.setWire_rounds : (s.setWire n v).rounds = s.rounds := rfl
@[simp] theorem State.setWire_red : (s.setWire n v).red = s.red := rfl
@[simp] theorem State.setWire_split : (s.setWire n v).split = s.split := rfl
@[simp] theorem State.setWire_captured0 : (s.setWire n v).captured0 = s.captured0 := rfl
@[simp] theorem State.setWire_captured1 : (s.setWire n v).captured1 = s.captured1 := rfl
@[simp] theorem State.setWire_pair : (s.setWire n v).pair = s.pair := rfl
@[simp] theorem State.setWire_pow : (s.setWire n v).pow = s.pow := rfl
@[simp] theorem State.setWire_boot : (s.setWire n v).boot = s.boot := rfl
@[simp] theorem State.setWire_panel : (s.setWire n v).panel = s.panel := rfl
@[simp] theorem State.setWire_clock0 : (s.setWire n v).clock0 = s.clock0 := rfl
@[simp] theorem State.setWire_clock1 : (s.setWire n v).clock1 = s.clock1 := rfl
@[simp] theorem State.setWire_pending : (s.setWire n v).pending = s.pending := rfl
@[simp] theorem State.setWire_wire : (s.setWire n v).wire n = v := tget_tset_same ..
theorem State.setWire_wire_other {m : Nat} (h : m ≠ n) : (s.setWire n v).wire m = s.wire m := tget_tset_other _ _ _ _ _ h
end

/-! ### setLive -/

section
variable (s : State) (n : Nat) (v : RosterState)
@[simp] theorem State.setLive_nv : (s.setLive n v).nv = s.nv := rfl
@[simp] theorem State.setLive_ao : (s.setLive n v).ao = s.ao := rfl
@[simp] theorem State.setLive_now : (s.setLive n v).now = s.now := rfl
@[simp] theorem State.setLive_draw : (s.setLive n v).draw = s.draw := rfl
@[simp] theorem State.setLive_out : (s.setLive n v).out = s.out := rfl
@[simp] theorem State.setLive_dict : (s.setLive n v).dict = s.dict := rfl
@[simp] theorem State.setLive_evt : (s.setLive n v).evt = s.evt := rfl
@[simp] theorem State.setLive_route : (s.setLive n v).route = s.route := rfl
@[simp] theorem State.setLive_cnt : (s.setLive n v).cnt = s.cnt := rfl
@[simp] theorem State.setLive_acc : (s.setLive n v).acc = s.acc := rfl
@[simp] theorem State.setLive_host : (s.setLive n v).host = s.host := rfl
@[simp] theorem State.setLive_wires : (s.setLive n v).wires = s.wires := rfl
@[simp] theorem State.setLive_proc : (s.setLive n v).proc = s.proc := rfl
@[simp] theorem State.setLive_mbox : (s.setLive n v).mbox = s.mbox := rfl
@[simp] theorem State.setLive_ports : (s.setLive n v).ports = s.ports := rfl
@[simp] theorem State.setLive_rules : (s.setLive n v).rules = s.rules := rfl
@[simp] theorem State.setLive_fdb : (s.setLive n v).fdb = s.fdb := rfl
@[simp] theorem State.setLive_flow : (s.setLive n v).flow = s.flow := rfl
@[simp] theorem State.setLive_buf : (s.setLive n v).buf = s.buf := rfl
@[simp] theorem State.setLive_egress : (s.setLive n v).egress = s.egress := rfl
@[simp] theorem State.setLive_queues : (s.setLive n v).queues = s.queues := rfl
@[simp] theorem State.setLive_rounds : (s.setLive n v).rounds = s.rounds := rfl
@[simp] theorem State.setLive_red : (s.setLive n v).red = s.red := rfl
@[simp] theorem State.setLive_split : (s.setLive n v).split = s.split := rfl
@[simp] theorem State.setLive_captured0 : (s.setLive n v).captured0 = s.captured0 := rfl
@[simp] theorem State.setLive_captured1 : (s.setLive n v).captured1 = s.captured1 := rfl
@[simp] theorem State.setLive_pair : (s.setLive n v).pair = s.pair := rfl
@[simp] theorem State.setLive_pow : (s.setLive n v).pow = s.pow := rfl
@[simp] theorem State.setLive_boot : (s.setLive n v).boot = s.boot := rfl
@[simp] theorem State.setLive_panel : (s.setLive n v).panel = s.panel := rfl
@[simp] theorem State.setLive_clock0 : (s.setLive n v).clock0 = s.clock0 := rfl
@[simp] theorem State.setLive_clock1 : (s.setLive n v).clock1 = s.clock1 := rfl
@[simp] theorem State.setLive_pending : (s.setLive n v).pending = s.pending := rfl
@[simp] theorem State.setLive_live : (s.setLive n v).live n = v := tget_tset_same ..
theorem State.setLive_live_other {m : Nat} (h : m ≠ n) : (s.setLive n v).live m = s.live m := tget_tset_other _ _ _ _ _ h
end

end Sys2Proof.Machine
end

