-- ==== Sys2Proof/Laws/Tally.lean ====
section
/-! SUPPORT. The counters: counting moves the one counter it names, and a counter that is neither reporting's nor time's moves by a
command's own effect alone. -/
namespace Sys2Proof.Machine

theorem tally_tset (s : State) {n m : Nat} (h : n ≠ m) (v : Nat) (w : List Nat) :
    ({ s with cnt := { s.cnt with vals := tset 0 s.cnt.vals m v, saturated := w } } : State).tally n = s.tally n :=
  tget_tset_other _ _ _ _ _ h

theorem tally_count_other (s : State) {n m : Nat} (h : n ≠ m) (k : Nat) : (s.count m k).tally n = s.tally n :=
  tally_tset s h ..
theorem tally_countW_other (s : State) {n m : Nat} (h : n ≠ m) (k : Nat) : (s.countW m k).tally n = s.tally n :=
  tally_tset s h _ s.cnt.saturated
theorem tally_uncount_other (s : State) {n m : Nat} (h : n ≠ m) : (s.uncount m).tally n = s.tally n :=
  tally_tset s h _ s.cnt.saturated

/-- Counting on a narrow counter that is not full advances it (16 R411). -/
theorem tally_count_same (s : State) (n k : Nat) : (s.count n k).tally n = min (s.tally n + k) narrowMax := by
  simp only [State.tally, State.count, tget_tset_same]

/-- A counter that is not reporting's is a part of the state that neither a report nor the end of a command touches. -/
theorem unsettled_tally {n : Nat} (h : n ∉ reportCounters) : Unsettled (fun s => s.tally n) where
  evt _ _ := rfl
  out _ _ := rfl
  vals s m v w hm := tally_tset s (n := n) (m := m) (fun e => h (e ▸ hm)) v w
  trig _ := rfl
  dom _ _ _ := rfl
  msix _ _ := rfl
  ring _ _ := rfl
  wires _ _ := rfl
  cut s f d := by unfold State.cut State.tally; dsimp only; split <;> rfl
  overrun _ _ := rfl
  sat _ _ := rfl
  lost _ _ := rfl
  slice _ _ _ := rfl

theorem tally_raise (s : State) {n : Nat} (h : n ∉ reportCounters) (m f : Nat) (c : List Byte) :
    (s.raise m f c).tally n = s.tally n := (unsettled_tally h).raise s m f c

theorem tally_fold {α : Type} (n : Nat) (f : State → α → State) (l : List α)
    (h : ∀ s, ∀ a ∈ l, (f s a).tally n = s.tally n) (s : State) : (l.foldl f s).tally n = s.tally n := by
  induction l generalizing s with
  | nil => rfl
  | cons a r ih =>
    rw [List.foldl_cons, ih (fun s b hb => h s b (List.mem_cons_of_mem _ hb)), h s a (List.mem_cons_self ..)]

theorem auto_time {c : Nat} (h : c < 64) : Num.mbAutoAcks c 0 ∈ timeCounters :=
  List.mem_append_right _ (List.mem_flatMap.2 ⟨c, List.mem_range.2 h, by simp⟩)
theorem reset_time {c v : Nat} (h : c < 64) (hv : v < 2) : Num.mbResets c v ∈ timeCounters := by
  refine List.mem_append_right _ (List.mem_flatMap.2 ⟨c, List.mem_range.2 h, ?_⟩)
  rcases (show v = 0 ∨ v = 1 by omega) with rfl | rfl <;> simp
theorem state_time {i k : Nat} (hi : i < 4) (hk : k < 3) : Num.timeInState i k ∈ timeCounters :=
  List.mem_append_left _ (List.mem_flatMap.2 ⟨i, List.mem_range.2 hi, List.mem_map.2 ⟨k, List.mem_range.2 hk, rfl⟩⟩)

theorem tally_recross {n : Nat} (s : State) (c : Nat) : (s.recross c).tally n = s.tally n := by
  unfold State.recross
  split
  · rfl
  · dsimp only; split <;> rfl

section
variable {n : Nat} (hr : n ∉ reportCounters) (ht : n ∉ timeCounters)
include hr ht

theorem tally_mbResetReceiver (s : State) {c : Nat} (hc : c < 64) : (s.mbResetReceiver c).tally n = s.tally n := by
  have o {m : Nat} (h : m ∈ timeCounters) : n ≠ m := fun e => ht (e ▸ h)
  unfold State.mbResetReceiver
  extract_lets h acks s1 s2 s3 s4
  have h2 : s2.tally n = s.tally n := tally_recross s1 c
  have h4 : s4.tally n = s.tally n := by
    unfold s4 State.mbSender
    rw [tally_raise _ hr]
    unfold s3
    rw [tally_count_other _ (o (reset_time hc (by omega))), tally_count_other _ (o (auto_time hc)), h2]
  split
  · exact h4
  · unfold State.mbNotify
    split
    · split <;> exact h4
    · exact h4

theorem tally_mbResetSender (s : State) {c : Nat} (hc : c < 64) : (s.mbResetSender c).tally n = s.tally n := by
  have o {m : Nat} (h : m ∈ timeCounters) : n ≠ m := fun e => ht (e ▸ h)
  unfold State.mbResetSender
  extract_lets h made gone orphans found s1 s2
  have h2 : s2.tally n = s.tally n :=
    tally_fold n _ _ (fun s a _ => tally_uncount_other s (o (auto_time hc))) s1
  unfold State.mbReceiver
  rw [tally_raise _ hr, tally_count_other _ (o (reset_time hc (by omega)))]
  exact (tally_recross s2 c).trans h2

theorem tally_toGroupState (s : State) (g : Nat) (p : ProcState) : (s.toGroupState g p).tally n = s.tally n := by
  unfold State.toGroupState
  extract_lets old s1 p1 s3 s2
  have h3 : s3.tally n = s.tally n := by unfold s3; split <;> rfl
  have h2 : s2.tally n = s.tally n := by
    unfold s2; split
    · exact (tally_fold n (fun (s : State) k => s.setCore k _) _ (fun s a _ => rfl) s3).trans h3
    · rfl
  split
  · unfold State.mbGroupReset
    extract_lets code mine s4
    have hb (f : Binding → Nat) : ∀ c ∈ mine f, c < 64 := fun c hc => List.mem_range.1 (List.mem_filter.1 hc).1
    rw [tally_fold n _ _ (fun s c hc => tally_mbResetReceiver hr ht s (hb _ c hc))]
    unfold s4
    rw [tally_fold n _ _ (fun s c hc => tally_mbResetSender hr ht s (hb _ c hc)), h2]
  · exact h2

theorem tally_groupCommand (s : State) (g c : Nat) : (s.groupCommand g c).tally n = s.tally n := by
  unfold State.groupCommand
  extract_lets st
  split
  · split
    · rfl
    · exact tally_toGroupState hr ht ..
  · split
    · rfl
    · split
      · split
        · exact tally_toGroupState hr ht ..
        · rfl
      · rw [tally_toGroupState hr ht, tally_toGroupState hr ht]
        exact tally_fold n (fun (s : State) k => s.setCore k _) _ (fun s a _ => rfl) s

/-- Time alone moves no counter but its own and reporting's. -/
theorem tally_enter (s : State) (t : Nat) : (s.enter t).tally n = s.tally n := by
  have h1 (s : State) : s.dueCommands.tally n = s.tally n := by
    unfold State.dueCommands
    extract_lets due p1 s1
    refine tally_fold n _ _ (fun s a _ => ?_) s1
    exact tally_groupCommand hr ht { s with now := a.at_ } ..
  have h2 (s : State) : s.settleSlices.tally n = s.tally n := by
    unfold State.settleSlices
    refine tally_fold n _ _ (fun s i hi => ?_) s
    have o {k : Nat} (hk : k < 3) : n ≠ Num.timeInState i k :=
      fun e => ht (e ▸ state_time (List.mem_range.1 hi) hk)
    dsimp only
    split
    · rfl
    · exact tget_tset_other _ _ _ _ _ (o (by omega))
    · exact tget_tset_other _ _ _ _ _ (o (by omega))
    · exact tget_tset_other _ _ _ _ _ (o (by omega))
  have h3 : (s.settleShapers (max s.now t)).tally n = s.tally n := by
    unfold State.settleShapers
    refine tally_fold n _ _ ?_ s
    intro s a _; rfl
  unfold State.enter
  rw [h1, show ∀ s : State, (s.sendWires 0).tally n = s.tally n from fun s => (unsettled_tally hr).toUnreported.sendWires s 0, h2]
  exact h3

/-- A command whose effect leaves a counter alone leaves it as it was. -/
theorem tally_go (s : State) (t : Nat) (awake : State → Bool) (f : State → State) (hf : ∀ x, (f x).tally n = x.tally n) :
    (s.go t awake f).tally n = s.tally n := by
  unfold State.go
  dsimp only
  rw [show ∀ x : State, x.settle.markIdle.tally n = x.tally n from fun x => (unsettled_tally hr).finish x]
  split
  · rw [hf, tally_enter hr ht]
  · exact tally_enter hr ht ..

theorem tally_run {s s' : State} {t : Nat} {f : State → State} (hf : ∀ x, (f x).tally n = x.tally n)
    (h : s.run t f = .next s') : s'.tally n = s.tally n := by
  have e := tally_go hr ht s t (fun e => !e.dormant) f hf
  unfold State.run at h
  generalize s.go t (fun e => !e.dormant) f = y at e h
  injection h with h
  subst h
  exact e

end

end Sys2Proof.Machine
end

