-- ==== Sys2Proof/WellFormed.lean ====
section
/-! DEFINITION. Which operands of a command are ones that its rule lets arrive. The machine runs every command whatever its
operands; statements that need an operand in its range take it from here. -/
namespace Sys2Proof

/-- A span of a wake plan names slices 0 to 3, and does not end before it starts (08 R230). -/
def HoldSpan.wf (h : HoldSpan) : Bool := decide (h.slices < 16) && decide (h.start ≤ h.stop)

/-- Are the operands in the ranges that the rules of their rows give? -/
def Instr.wf : Instr → Bool
  -- a posted write carries bytes (10 R269)
  | .registerWrite _ _ _ _ data => !data.bytes.isEmpty
  -- LENGTH of a command has 13 bits (02 Table 2.2)
  | .write _ _ _ _ data => decide (data.length < 8192)
  | .blockSeg _ _ _ _ _ data => decide (data.length < 8192)
  -- the parser reads at most the first 256 bytes of a frame (03 R64)
  | .rxFrameStart _ _ head => !head.isEmpty && decide (head.length ≤ 256)
  -- a time has 48 bits of seconds and less than 10^9 nanoseconds (02 Table 2.1)
  | .clockStep _ _ seconds nanos => decide (seconds < 2 ^ 48) && decide (nanos < 1000000000)
  -- Table 10.2
  | .hostLinkTrained _ _ speed width _ _ => decide (1 ≤ speed) && decide (speed ≤ 5) && [1, 2, 4, 8].contains width
  -- descriptors have 32 bytes (10 R273)
  | .ringDoorbell _ _ _ _ posted => posted.length % 32 == 0
  | .txDescriptorFetch _ _ ok desc => !ok || desc.length == 32
  -- 15 R400, R404
  | .ownerKeyProgram _ _ hash => hash.length == 32
  | .attestationRequest _ _ nonce => nonce.length == 32
  -- 08 R227
  | .grandmasterChange _ _ gm => gm.identity.length == 8
  | .wakePlanWrite _ spans _ => spans.all HoldSpan.wf
  -- 13 Table 13.5
  | .announceRx _ _ body => body.bytes.length == 48
  | .enrol _ _ hash node _ => hash.length == 32 && decide (node < 256)
  -- a chunk holds 256 entries of 16 bytes (04 R105)
  | .shadowFetch _ ok data => !ok || data.length == 4096
  | _ => true

end Sys2Proof
end

