-- ==== Sys2Proof/Tests/Slice0.lean ====
section
/-! SUPPORT. Tests: the checks of WellFormed refuse an ill-formed operand each; a few values that the spec works out; and for
every statement of Obligations.lean a concrete state and operands that meet the hypotheses of each of its clauses. -/
section
set_option maxRecDepth 4000
set_option Elab.async false
set_option exponentiation.threshold 1024
open Sys2Proof Sys2Proof.Machine
namespace Sys2Proof.Tests

/-! ### Well-formedness -/

theorem test_wf_registerWrite : (Instr.registerWrite 0 .host .bar0 0 { bytes := [] }).wf = false := by decide +kernel
theorem test_wf_write : (Instr.write 0 .marshal 0x5001 0 (List.replicate 8192 0)).wf = false := by
  simp only [Instr.wf, List.length_replicate]; decide
theorem test_wf_blockSeg : (Instr.blockSeg 0 .marshal 0x5001 0 0 (List.replicate 8192 0)).wf = false := by
  simp only [Instr.wf, List.length_replicate]; decide
theorem test_wf_rxFrameStart : (Instr.rxFrameStart 0 0 []).wf = false ∧
    (Instr.rxFrameStart 0 0 (List.replicate 257 0)).wf = false := by decide +kernel
theorem test_wf_clockStep : (Instr.clockStep 0 0 (2 ^ 48) 0).wf = false ∧ (Instr.clockStep 0 0 0 1000000000).wf = false := by
  decide +kernel
theorem test_wf_hostLinkTrained : (Instr.hostLinkTrained 0 true 6 8 true true).wf = false ∧
    (Instr.hostLinkTrained 0 true 5 16 true true).wf = false := by decide +kernel
theorem test_wf_ringDoorbell : (Instr.ringDoorbell 0 .host 16 1 [0]).wf = false := by decide +kernel
theorem test_wf_txDescriptorFetch : (Instr.txDescriptorFetch 0 0 true []).wf = false := by decide +kernel
theorem test_wf_ownerKeyProgram : (Instr.ownerKeyProgram 0 .marshal [1]).wf = false := by decide +kernel
theorem test_wf_attestationRequest : (Instr.attestationRequest 0 .marshal [1]).wf = false := by decide +kernel
theorem test_wf_grandmasterChange : (Instr.grandmasterChange 0 0 { synchronised := true, identity := [1], offset := 0 }).wf = false := by
  decide +kernel
theorem test_wf_wakePlanWrite : (Instr.wakePlanWrite 0 [{ slices := 16, start := 0, stop := 1 }] 9).wf = false ∧
    (Instr.wakePlanWrite 0 [{ slices := 15, start := 2, stop := 1 }] 9).wf = false := by decide +kernel
theorem test_wf_announceRx : (Instr.announceRx 0 0 { bytes := [], role := 1 }).wf = false := by decide +kernel
theorem test_wf_enrol : (Instr.enrol 0 0 [1] 5 true).wf = false ∧ (Instr.enrol 0 0 (List.replicate 32 0) 256 true).wf = false := by
  decide +kernel
theorem test_wf_shadowFetch : (Instr.shadowFetch 0 true [1]).wf = false := by decide +kernel
theorem test_wf_good : (Instr.hostLinkTrained 0 true 5 8 true true).wf = true ∧ (Instr.rxFrameStart 0 31 [0]).wf = true := by
  decide +kernel

/-! ### The table gives no bits -/

theorem test_no_words (nbits w : Nat) : decodeTableWord nbits w = none := rfl
theorem test_withFetchWord (s : State) (nbits w : Nat) : s.withFetchWord nbits w = s := rfl

/-! ### Values that the spec works out -/

/-- What a step answers, seen through `f`. -/
def after {α : Type} (r : Result) (f : State → α) : Option α := match r with | .next s => some (f s) | _ => none

/-- 02 R459: the nine ASCII bytes "123456789" give 0xE306_9283. -/
theorem test_crc32c : crc32c [0x31, 0x32, 0x33, 0x34, 0x35, 0x36, 0x37, 0x38, 0x39] = 0xE3069283 := by decide +kernel

/-- 02, the example after R42: a WRITE of 2 bytes to 0x3500.02 while the Marshal group is stopped returns 0x0820_0001. -/
theorem test_length_before_dark :
    State.reset.check .marshal { op := .write, idx := 0x3500, sub := 2, data := [0, 0] } = 0x08200001 := by decide +kernel

/-- 02, the same: of the right length it returns 0x0850_0030. -/
theorem test_dark : State.reset.check .marshal { op := .write, idx := 0x3500, sub := 2, data := [0, 0, 0, 0] } = 0x08500030 := by
  decide +kernel

/-- 02, the same: a write that host-nonsecure may not make returns 0x0810_0002, even when another principal holds the group. -/
theorem test_access_before_busy :
    State.check { State.reset with dict.groups := [(0x12, { state := .staged, holder := some .marshal })] } .nonsecure
      { op := .blockOpen, idx := 0x2200, sub := 0, data := leBytes 4 32768 } = 0x08100002 := by decide +kernel

/-- The dark access source of a DORMANT device whose host link is up. -/
def darkState (e : EventSource) : State := { State.reset with pow.state := .dormant, host.proto := .cxl, evt := [(0x180, e)] }

/-- 02 Table 2.12, t0: a dark read returns 0xD0FF_D0FF and makes DARK_STATUS = 0x0043_8001. -/
theorem test_dark_read : after (exec (.darkRead 5 .host .bar0 0x10000 1) (darkState { seq := 0x42 }))
    (fun s => ((s.source 0x180).word, s.out)) = some (0x00438001, [.regData [0xFF, 0xD0, 0xFF, 0xD0]]) := by decide +kernel

/-- 02 Table 2.12, t0 + 0.4 µs: a write within the hold-off makes it 0x0043_8003. -/
theorem test_dark_write :
    after (exec (.darkWrite 400000 .host .bar0 0x10000) (darkState { seq := 0x43, pend := true, flags := 1, holdEnd := some 1000000 }))
      (fun s => (s.source 0x180).word) = some 0x00438003 := by decide +kernel

/-- 02 Table 2.12, t0 + 0.9 µs: a write of 0x0043_0000 clears it. -/
theorem test_dark_clear :
    after (exec (.statusClear 900000 0x180 0x00430000)
      (darkState { seq := 0x43, pend := true, flags := 3, holdEnd := some 1000000, fell := true, deferred := 2 }))
      (fun s => (s.source 0x180).word) = some 0x00430000 := by decide +kernel

/-- 02 below Table 2.12: a handler that wrote 0x0042_0000 would have cleared nothing. -/
theorem test_dark_stale_clear :
    after (exec (.statusClear 900000 0x180 0x00420000)
      (darkState { seq := 0x43, pend := true, flags := 3, holdEnd := some 1000000, fell := true, deferred := 2 }))
      (fun s => (s.source 0x180).word) = some 0x00438003 := by decide +kernel

/-- 02 Table 2.12, t0 + 1.0 µs: the hold-off ends with the deferred event, 0x0044_8002. -/
theorem test_dark_holdOff :
    after (exec (.holdOffEnd 1000000 0x180) (darkState { seq := 0x43, holdEnd := some 1000000, fell := true, deferred := 2 }))
      (fun s => (s.source 0x180).word) = some 0x00448002 := by decide +kernel

/-- 14 Table 14.13: the floors of the slices of Vellmark node 3, with P0 and P4 at 400G and P8 to P22 at 25G. -/
theorem test_slice_floors :
    (List.range 4).map (sliceFloor fun p => if p = 0 ∨ p = 4 then 1 else if 8 ≤ p ∧ p ≤ 22 then 5 else 0) = [0, 3, 3, 2] := by
  decide +kernel

/-- 07, the example after R195: a correct FCS sent as 1D 4A 80 06 is stomped as E2 B5 7F F9. -/
theorem test_stomp : leBytes 4 (leVal [0x1D, 0x4A, 0x80, 0x06] ^^^ 0xFFFFFFFF) = [0xE2, 0xB5, 0x7F, 0xF9] := by decide +kernel

/-- 07 Table 7.3: reserves of 18,880 cells leave S = 242,240 cells. -/
theorem test_buffer_size : poolCells - 18880 = 242240 := by decide +kernel

/-- An empty queue idles; a command in front is taken off it. -/
theorem test_step_idles : step State.reset = .next State.reset := rfl
theorem test_step_takes : after (step { State.reset with pending := [.perstNRelease 3, .flr 4] })
    (fun s => (s.pending, s.ao.perstHigh, s.now)) = some ([.flr 4], true, 3) := by decide +kernel

/-! ### What a witness needs -/

/-- After reset, with the host link trained. -/
def linkUp : State := { State.reset with host.proto := .cxl }
theorem acts_of {s : State} {t : Nat} (h : s.dormant = false) (c : s.ao.coldLow = false) (r : s.boot.resetAt = none) : s.acts t :=
  ⟨h, c, fun a x => by rw [r] at x; cases x⟩
theorem upAt_of {s : State} {t : Nat} (c : s.ao.coldLow = false) (r : s.boot.resetAt = none) : s.upAt t :=
  ⟨c, fun a x => by rw [r] at x; cases x⟩
theorem answers {c : Instr} {s : State} {P : State → Prop} (h : Does c s P) : Answers (exec c s) :=
  h.elim fun s' a => ⟨s', a.1⟩

end Sys2Proof.Tests

/-! ### Witnesses. Each conjunct of `meets_<Name>` is one clause of the statement <Name> applied at a concrete state: the proof
discharges every hypothesis of that clause there, so no clause is empty. -/

namespace Sys2Proof.Tests.A

def sStatus : State := { State.reset with evt := [(0x186, { seq := 7, pend := true, flags := 3 })] }

theorem meets_StatusWordClearsBySequence (h : Obligations.StatusWordClearsBySequence) :
    Answers (exec (.statusClear 5 390 458752) sStatus) :=
  answers (h sStatus 5 0x186 0x70000 (upAt_of rfl rfl) ⟨rfl, ⟨rfl, rfl⟩, rfl, rfl, by decide, rfl, rfl⟩ (by decide +kernel)
      (by decide +kernel))

def sHoldOff : State := { State.reset with evt := [(0x186, { seq := 7, holdEnd := some 10, fell := true, deferred := 2 })] }

theorem meets_HoldOffEndAdvancesSequence (h : Obligations.HoldOffEndAdvancesSequence) :
    Answers (exec (.holdOffEnd 20 390) sHoldOff) ∧
    Answers (exec (.holdOffEnd 10 390) sHoldOff) :=
  ⟨answers ((h sHoldOff 20 0x186 10 (upAt_of rfl rfl) ⟨rfl, ⟨rfl, rfl⟩, rfl, rfl, by decide, rfl, rfl⟩ (by decide +kernel)
      (by decide +kernel) (by decide +kernel) (by decide +kernel)).1),
    answers ((h sHoldOff 10 0x186 10 (upAt_of rfl rfl) ⟨rfl, ⟨rfl, rfl⟩, rfl, rfl, by decide, rfl, rfl⟩ (by decide +kernel)
      (by decide +kernel) (by decide +kernel) (by decide +kernel)).2 (show _ by decide +kernel) (by decide +kernel))⟩

def sBusySnap : State := { State.reset with cnt.phase := .copying false false }

theorem meets_SnapshotCommandsCutOrOverrun (h : Obligations.SnapshotCommandsCutOrOverrun) :
    Answers (exec (.snapshot 5) State.reset) ∧
    Answers (exec (.snapshotDump 5) State.reset) ∧
    Answers (exec (.snapshotFreezeArm 5) State.reset) ∧
    Answers (exec (.snapshot 5) sBusySnap) :=
  ⟨answers (((h State.reset 5 (acts_of (by decide) rfl rfl) ⟨rfl, ⟨rfl, rfl⟩, rfl, rfl, by decide, rfl, rfl⟩).1 rfl).1),
    answers (((h State.reset 5 (acts_of (by decide) rfl rfl) ⟨rfl, ⟨rfl, rfl⟩, rfl, rfl, by decide, rfl, rfl⟩).1 rfl).2.1),
    answers (((h State.reset 5 (acts_of (by decide) rfl rfl) ⟨rfl, ⟨rfl, rfl⟩, rfl, rfl, by decide, rfl, rfl⟩).1 rfl).2.2),
    answers ((h sBusySnap 5 (acts_of (by decide) rfl rfl) ⟨rfl, ⟨rfl, rfl⟩, rfl, rfl, by decide, rfl, rfl⟩).2
      (by decide +kernel) (.snapshot 5) (by decide +kernel))⟩

def sDumping : State := { State.reset with cnt.phase := .dumping }

def sSplit : State := { State.reset with
  host := { busMaster := true, rings := [(33, { baseLo := 1, state := .running, hostIdx := 0, dev := 0 })] }
  split.log := [List.replicate 256 7] }

theorem meets_SnapshotsCompleteAndLogsMove (h : Obligations.SnapshotsCompleteAndLogsMove) :
    Answers (exec (.snapshotComplete 5) sBusySnap) ∧
    Answers (exec (.dumpComplete 5) sDumping) ∧
    Answers (exec (.cntDataHiRead 5 .host) State.reset) ∧
    Answers (exec (.cntDataHiRead 5 .marshal) State.reset) ∧
    Answers (exec (.splitLogMove 5) sSplit) :=
  ⟨answers ((h.1 sBusySnap 5 (acts_of (by decide) rfl rfl)).1 false false rfl),
    answers ((h.1 sDumping 5 (acts_of (by decide) rfl rfl)).2.1 rfl),
    answers ((h.1 State.reset 5 (acts_of (by decide) rfl rfl)).2.2.1 .host rfl),
    answers ((h.1 State.reset 5 (acts_of (by decide) rfl rfl)).2.2.2 .marshal rfl),
    answers (h.2 sSplit 5 _ _ (acts_of (by decide) rfl rfl) rfl (by decide +kernel))⟩

def sSlow : State := { State.reset with acc.slow := [(0, { off := 0, value := 1 })] }

theorem meets_SlowDomainsPostOneWrite (h : Obligations.SlowDomainsPostOneWrite) :
    Answers (exec (.slowDomainRead 5 .host SlowDomain.ao 8) sSlow) ∧
    Answers (exec (.slowDomainWrite 5 .host SlowDomain.ao 8 9) sSlow) ∧
    Answers (exec (.slowDomainWrite 5 .marshal SlowDomain.ao 264 9) State.reset) ∧
    Answers (exec (.slowDomainWrite 5 .marshal SlowDomain.ao 264 9) sSlow) ∧
    Answers (exec (.slowWriteTakesEffect 5 SlowDomain.ao) sSlow) ∧
    Answers (exec (.slowDomainRead 5 .marshal (SlowDomain.port 2) 0) sSlow) :=
  ⟨answers ((h sSlow 5 .host .ao 8 9 (upAt_of rfl rfl) (.inl rfl)).1 (by decide +kernel) (.slowDomainRead 5 .host .ao 8)
      (by decide +kernel)),
    answers ((h sSlow 5 .host .ao 8 9 (upAt_of rfl rfl) (.inl rfl)).2.1 (by decide +kernel)),
    answers ((h State.reset 5 .marshal .ao 0x108 9 (upAt_of rfl rfl) (.inl rfl)).2.2.1 (by decide +kernel) (by decide +kernel)
      (by decide +kernel)),
    answers ((h sSlow 5 .marshal .ao 0x108 9 (upAt_of rfl rfl) (.inl rfl)).2.2.2.1 (by decide +kernel) (by decide +kernel)
      (by decide +kernel)),
    answers ((h sSlow 5 .marshal .ao 0x108 9 (upAt_of rfl rfl) (.inl rfl)).2.2.2.2.1),
    answers ((h sSlow 5 .marshal (.port 2) 0 9 (upAt_of rfl rfl) (.inr rfl)).2.2.2.2.2 (by decide +kernel))⟩

def sDormant : State := { linkUp with pow.state := .dormant }

theorem meets_DarkAndOddAccessesAreRecorded (h : Obligations.DarkAndOddAccessesAreRecorded) :
    Answers (exec (.darkRead 5 .host .bar2 16 2) sDormant) ∧
    Answers (exec (.darkWrite 5 .host .bar2 16) sDormant) ∧
    Answers (exec (.barPoisonedWrite 5 .bar0 262143) linkUp) ∧
    Answers (exec (.barBadSizeAccess 5 .bar0 131074 { wr := false, size := 8 }) linkUp) ∧
    Answers (exec (.barBadSizeAccess 5 .bar2 4096 { wr := true, size := 64 }) linkUp) ∧
    Answers (exec (.barUnassignedAccess 5 .bar0 8 true) linkUp) ∧
    Answers (exec (.barUnassignedAccess 5 .bar0 131104 true) linkUp) ∧
    Answers (exec (.darkRead 5 .host .bar0 8 2) State.reset) :=
  ⟨answers ((h.1 sDormant 5 .host .bar2 0x10 2 (upAt_of rfl rfl) rfl (by decide +kernel) (by decide +kernel)).1),
    answers ((h.1 sDormant 5 .host .bar2 0x10 2 (upAt_of rfl rfl) rfl (by decide +kernel) (by decide +kernel)).2),
    answers ((h.2.1 linkUp 5 .bar0 0x3FFFF true { wr := true, size := 4 } (upAt_of rfl rfl) rfl).1),
    answers ((h.2.1 linkUp 5 .bar0 0x20002 false { wr := false, size := 8 } (upAt_of rfl rfl) rfl).2.1 (by decide +kernel)),
    answers ((h.2.1 linkUp 5 .bar2 0x1000 false { wr := true, size := 64 } (upAt_of rfl rfl) rfl).2.2.1 (by decide +kernel)),
    answers ((h.2.1 linkUp 5 .bar0 8 true { wr := true, size := 4 } (upAt_of rfl rfl) rfl).2.2.2.1 (by decide +kernel)),
    answers ((h.2.1 linkUp 5 .bar0 0x20020 true { wr := true, size := 4 } (upAt_of rfl rfl) rfl).2.2.2.2 (by decide +kernel)),
    answers (h.2.2 State.reset 5 .host .bar0 8 8 2 true { wr := true, size := 4 } (upAt_of rfl rfl) rfl (.darkRead 5 .host .bar0
      8 2) (by decide +kernel))⟩

end Sys2Proof.Tests.A

namespace Sys2Proof.Tests.B

def sGroups : State := { State.reset with
  proc.groups := [(0, { state := .running, period := 5, deadline := some 40 }), (1, { state := .running }), (2, { state := .starting })]
  proc.cores := [(0, { mode := .executing }), (4, { mode := .executing }), (8, { mode := .held })]
  boot.digests := [(3, [1, 2])] }

theorem meets_GroupsAreWatchedAndChecked (h : Obligations.GroupsAreWatchedAndChecked) :
    Answers (exec (.watchdogExpiry 50 0) sGroups) ∧
    Answers (exec (.watchdogRestart 50 0) sGroups) ∧
    Answers (exec (.groupCheckDone 50 2 true) sGroups) ∧
    Answers (exec (.groupCheckDone 50 2 false) sGroups) ∧
    Answers (exec (.coreAccessRefused 50 (CoreId.timekeeper 0) 137438953472 (CoreAccess.barred true)) sGroups) ∧
    Answers (exec (.coreAccessRefused 50 (CoreId.timekeeper 0) 268435456 (CoreAccess.word true)) sGroups) :=
  ⟨answers ((h.1 sGroups _ 50 0 (acts_of (by decide) rfl rfl) rfl).1 40 (by decide +kernel) (by decide +kernel)),
    answers ((h.1 sGroups _ 50 0 (acts_of (by decide) rfl rfl) rfl).2 (by decide +kernel)),
    answers ((h.2.1 sGroups _ 50 2 (acts_of (by decide) rfl rfl) rfl (by decide +kernel) (by decide +kernel)).1
      (by decide +kernel)),
    answers ((h.2.1 sGroups _ 50 2 (acts_of (by decide) rfl rfl) rfl (by decide +kernel) (by decide +kernel)).2 false (.inl
      rfl)),
    answers ((h.2.2 sGroups _ 50 (.timekeeper 0) 0x2000000000 (acts_of (by decide) rfl rfl) rfl (by decide +kernel)).1 true
      (by decide +kernel)),
    answers ((h.2.2 sGroups _ 50 (.timekeeper 0) 0x10000000 (acts_of (by decide) rfl rfl) rfl (by decide +kernel)).2 true
      (by decide +kernel))⟩

def sCores : State := { State.reset with
  proc.groups := [(0, { state := .running }), (1, { state := .running })]
  proc.cores := [(0, { mode := .executing }), (1, { mode := .wait }), (2, { mode := .sleep, saved := true }), (4, { mode := .executing })] }

def sCoresLast : State := { sCores with
  proc.cores := [(0, { mode := .executing }), (1, { mode := .sleep }), (2, { mode := .sleep }), (3, { mode := .sleep })] }

theorem meets_CoresRestAndWake (h : Obligations.CoresRestAndWake) :
    Answers (exec (.restWait 50 (CoreId.marshal 0) false) sCores) ∧
    Answers (exec (.restSleep 50 (CoreId.marshal 0) true) sCores) ∧
    Answers (exec (.restSleep 50 (CoreId.marshal 0) false) sCores) ∧
    Answers (exec (.restSleep 50 (CoreId.marshal 0) false) sCoresLast) ∧
    Answers (exec (.restDevice 50 (CoreId.timekeeper 0) true 3) sCores) ∧
    Answers (exec (.restDevice 50 (CoreId.marshal 0) false 9) sCores) ∧
    Answers (exec (.restDevice 50 (CoreId.marshal 0) true 4) sCores) ∧
    Answers (exec (.coreWake 50 (CoreId.marshal 1) Ecc.good) sCores) ∧
    Answers (exec (.coreWake 50 (CoreId.marshal 2) Ecc.corrected) sCores) ∧
    Answers (exec (.coreWake 50 (CoreId.marshal 2) Ecc.head) sCores) :=
  ⟨answers ((h.1 sCores _ 50 (.marshal 0) false (acts_of (by decide) rfl rfl) rfl (by decide +kernel)).1),
    answers ((h.1 sCores _ 50 (.marshal 0) true (acts_of (by decide) rfl rfl) rfl (by decide +kernel)).2.1 rfl),
    answers ((h.1 sCores _ 50 (.marshal 0) false (acts_of (by decide) rfl rfl) rfl (by decide +kernel)).2.2.1 false 544 rfl
      (by decide +kernel) (by decide +kernel)),
    answers ((h.1 sCoresLast _ 50 (.marshal 0) false (acts_of (by decide) rfl rfl) rfl (by decide +kernel)).2.2.1 true 544 rfl
      (by decide +kernel) (by decide +kernel)),
    answers ((h.1 sCores _ 50 (.timekeeper 0) true (acts_of (by decide) rfl rfl) rfl (by decide +kernel)).2.2.2 3
      (by decide +kernel)),
    answers ((h.2.1 sCores _ _ 50 false 9 (acts_of (by decide) rfl rfl) rfl (by decide +kernel) rfl).1 rfl),
    answers ((h.2.1 sCores _ _ 50 true 4 (acts_of (by decide) rfl rfl) rfl (by decide +kernel) rfl).2 .dormant rfl),
    answers ((h.2.2 sCores _ 50 (.marshal 1) .good (acts_of (by decide) rfl rfl) rfl (by decide +kernel)).1
      (by decide +kernel)),
    answers ((h.2.2 sCores _ 50 (.marshal 2) .corrected (acts_of (by decide) rfl rfl) rfl (by decide +kernel)).2.1
      (by decide +kernel) (.inr rfl)),
    answers ((h.2.2 sCores _ 50 (.marshal 2) .head (acts_of (by decide) rfl rfl) rfl (by decide +kernel)).2.2
      (by decide +kernel) (by decide +kernel) (by decide +kernel))⟩

theorem unpurged {s : State} {c : Nat} (h : (s.chan c).purgedAt = none) (n : Nat) : (s.chan c).purgedAt ≠ some (s.now, n) := by
  rw [h]; simp

def mbMsg (tag : BitVec 16) (orphan : Bool) (a : Nat) : MbMessage := { data := [1], tag, epoch := 0, orphan, at_ := a }

theorem noReset {s : State} {c : Nat} (h : (s.chan c).resetAt = none) : ∀ r, (s.chan c).resetAt = some r → r.at_ ≠ s.now :=
  fun r x => by rw [h] at x; cases x

def sMail : State := { linkUp with
  proc.groups := [(0, { state := .running })]
  mbox.binding := [(0, { valid := true, sender := 1, receiver := 5, partner := 8 }), (1, { valid := true, sender := 1, receiver := 7 }), (8, { valid := true, sender := 5, receiver := 1, juniorRx := true, partner := 0 }),
    (2, { valid := true, sender := 1, receiver := 5 }),
    (3, { valid := true, sender := 1, receiver := 5 })]
  mbox.channels := [(0, { messages := [mbMsg 7 false 0], acks := [{ tag := 3, code := 9, auto := false }] }), (2, { messages := [mbMsg 7 true 0, mbMsg 8 false 0, mbMsg 9 false 0, mbMsg 10 false 0] }),
    (3, { purgedAt := some (50, 1), purged := [mbMsg 7 false 0], acks := [{ tag := 7, code := 0xE1, auto := true }] }), (8, { messages := [mbMsg 5 false 0] })] }

theorem meets_MailboxesPostAndAcknowledge (h : Obligations.MailboxesPostAndAcknowledge) :
    Answers (exec (.mbPost 50 1 0 7) sMail) ∧
    Answers (exec (.mbPost 50 1 1 7) sMail) ∧
    Answers (exec (.mbPost 50 1 3 7) sMail) ∧
    Answers (exec (.mbPost 50 2 2 7) sMail) ∧
    Answers (exec (.mbPost 50 1 2 7) sMail) ∧
    Answers (exec (.mbAck 50 5 3 7 208) sMail) ∧
    Answers (exec (.mbAck 50 5 0 7 3) sMail) ∧
    Answers (exec (.mbAck 50 5 2 7 223) sMail) ∧
    Answers (exec (.mbAck 50 7 1 7 224) sMail) :=
  ⟨answers ((h sMail _ 50 1 0 7 (acts_of (by decide) rfl rfl) rfl rfl (noReset (by decide +kernel))).1 (by decide +kernel)
      (by decide +kernel) (by decide +kernel) (unpurged (show _ by decide +kernel))),
    answers ((h sMail _ 50 1 1 7 (acts_of (by decide) rfl rfl) rfl rfl (noReset (by decide +kernel))).2.1 (by decide +kernel)
      (by decide +kernel) (by decide +kernel) (unpurged (show _ by decide +kernel))),
    answers ((h sMail _ 50 1 3 7 (acts_of (by decide) rfl rfl) rfl rfl (noReset (by decide +kernel))).2.2.1 1
      (by decide +kernel) (by decide +kernel) (by decide +kernel)),
    answers ((h sMail _ 50 2 2 7 (acts_of (by decide) rfl rfl) rfl rfl (noReset (by decide +kernel))).2.2.2.1
      (by decide +kernel)),
    answers ((h sMail _ 50 1 2 7 (acts_of (by decide) rfl rfl) rfl rfl (noReset (by decide +kernel))).2.2.2.2.1
      (by decide +kernel) (by decide +kernel)),
    answers ((h sMail _ 50 5 3 7 (acts_of (by decide) rfl rfl) rfl rfl (noReset (by decide +kernel))).2.2.2.2.2.1 0xD0 (mbMsg 7
      false 0) [] 1 (by decide +kernel) (by decide +kernel) (by decide +kernel) (show _ by decide +kernel) (by decide +kernel)
      (by decide +kernel)),
    answers (((h sMail _ 50 5 0 7 (acts_of (by decide) rfl rfl) rfl rfl (noReset (by decide +kernel))).2.2.2.2.2.2 (unpurged
      (by decide +kernel))).1 3 (mbMsg 7 false 0) [] (by decide +kernel) (by decide +kernel) (show _ by decide +kernel)
      (by decide +kernel) (by decide +kernel)),
    answers (((h sMail _ 50 5 2 7 (acts_of (by decide) rfl rfl) rfl rfl (noReset (by decide +kernel))).2.2.2.2.2.2 (unpurged
      (by decide +kernel))).2.1 0xDF (mbMsg 7 true 0) [mbMsg 8 false 0, mbMsg 9 false 0, mbMsg 10 false 0] (by decide +kernel)
      (by decide +kernel) (show _ by decide +kernel) (by decide +kernel) (by decide +kernel)),
    answers (((h sMail _ 50 7 1 7 (acts_of (by decide) rfl rfl) rfl rfl (noReset (by decide +kernel))).2.2.2.2.2.2 (unpurged
      (by decide +kernel))).2.2 0xE0 (by decide +kernel) (fun m r x => by revert x; simp))⟩

def sMailReset : State := { sMail with
  mbox := { sMail.mbox with channels := [(2, { epoch := 1, resetAt := some { at_ := 50, txbuf := [9], places := 1, orphans := 0 } })] } }

theorem meets_MailboxReadsDenialsAndResets (h : Obligations.MailboxReadsDenialsAndResets) :
    Answers (exec (.mbAckcodeRead 50 1 0) sMail) ∧
    Answers (exec (.mbAckcodeRead 50 1 1) sMail) ∧
    Answers (exec (.mbAckcodeRead 50 5 0) sMail) ∧
    Answers (exec (.mbAccessDenied 50 2 63 false) sMail) ∧
    Answers (exec (.mbResetTx 50 1 2) sMail) ∧
    Answers (exec (.mbResetTx 50 1 3) sMail) ∧
    Answers (exec (.mbPost 50 1 2 6) sMailReset) ∧
    Answers (exec (.mbResetRx 50 5 2) sMail) :=
  ⟨answers ((h.1 sMail _ 50 1 0 (acts_of (by decide) rfl rfl) rfl rfl).1 { tag := 3, code := 9, auto := false } []
      (by decide +kernel) (by decide +kernel)),
    answers ((h.1 sMail _ 50 1 1 (acts_of (by decide) rfl rfl) rfl rfl).2.1 (by decide +kernel) (by decide +kernel)),
    answers ((h.1 sMail _ 50 5 0 (acts_of (by decide) rfl rfl) rfl rfl).2.2.1 (by decide +kernel)),
    answers ((h.1 sMail _ 50 2 63 (acts_of (by decide) rfl rfl) rfl rfl).2.2.2 false),
    answers (h.2.1 sMail _ 50 1 2 0 _ (acts_of (by decide) rfl rfl) rfl rfl (by decide +kernel) (by decide +kernel) (noReset
      (by decide +kernel)) rfl),
    answers (h.2.1 sMail _ 50 1 3 1 _ (acts_of (by decide) rfl rfl) rfl rfl (by decide +kernel) (by decide +kernel) (noReset
      (by decide +kernel)) rfl),
    answers (h.2.2.1 sMailReset _ 50 1 2 6 { at_ := 50, txbuf := [9], places := 1, orphans := 0 } (acts_of (by decide) rfl rfl)
      rfl rfl (by decide +kernel) (by decide +kernel) (by decide +kernel) (by decide +kernel) (unpurged
      (show _ by decide +kernel)) (by decide +kernel)),
    answers (h.2.2.2 sMail _ 50 5 2 [{ tag := 8, code := 0xE1, auto := true }, { tag := 9, code := 0xE1, auto := true },
      { tag := 10, code := 0xE1, auto := true }] (acts_of (by decide) rfl rfl) rfl rfl (by decide +kernel) (by decide +kernel))⟩

theorem meets_CrossedPairsAreReportedOnce (h : Obligations.CrossedPairsAreReportedOnce) :
    Answers (exec (.mbCrossing 10000000 0) sMail) ∧
    Answers (exec (.mbCrossing 9999999 0) sMail) :=
  ⟨answers ((h sMail _ 10000000 0 8 (acts_of (by decide) rfl rfl) rfl (by decide +kernel) (by decide +kernel) (by decide +kernel)
      (by decide +kernel)).1 ⟨mbMsg 7 false 0, (show _ by decide +kernel)⟩ ⟨mbMsg 5 false 0, (by decide +kernel)⟩
      (by decide +kernel)),
    answers ((h sMail _ 9999999 0 8 (acts_of (by decide) rfl rfl) rfl (by decide +kernel) (by decide +kernel)
      (by decide +kernel) (by decide +kernel)).2 (.inl (show _ by decide +kernel)))⟩

end Sys2Proof.Tests.B

namespace Sys2Proof.Tests.C

def sLink (l : Link) : State := { State.reset with
  dict.vals := [(0x200001, [2])], pow.slices := [(0, { state := .run })], ports := [(0, { link := l })]
  egress := [(0, { tx := none, oper := { preempt := 2 } })] }

def sDown : State := sLink .down

def sTraining : State := sLink .training

def sUp : State := sLink .up

def sNoFlush : State := { sTraining with dict.vals := [(0x200001, [2]), (0x241002, [0])] }

theorem meets_LinksTrainComeUpAndGoDown (h : Obligations.LinksTrainComeUpAndGoDown) :
    Answers (exec (.linkTrainingStart 50 0) sDown) ∧
    Answers (exec (.partnerDetected 50 0) sDown) ∧
    Answers (exec (.linkUp 50 0) sTraining) ∧
    Answers (exec (.linkDown 50 0) sNoFlush) ∧
    Answers (exec (.linkDown 50 0) sTraining) ∧
    Answers (exec (.linkDown 50 0) sUp) :=
  ⟨answers ((h sDown _ 50 0 (acts_of (by decide) rfl rfl) rfl).1 (by decide +kernel) (by decide +kernel)),
    answers ((h sDown _ 50 0 (acts_of (by decide) rfl rfl) rfl).2.1 (by decide +kernel) (by decide +kernel)),
    answers ((h sTraining _ 50 0 (acts_of (by decide) rfl rfl) rfl).2.2.1 (by decide +kernel) (by decide +kernel)),
    answers ((h sNoFlush _ 50 0 (acts_of (by decide) rfl rfl) rfl).2.2.2.1 (by decide +kernel) (by decide +kernel) |>.1
      (by decide +kernel)),
    answers ((h sTraining _ 50 0 (acts_of (by decide) rfl rfl) rfl).2.2.2.1 (by decide +kernel) (by decide +kernel) |>.2
      (by decide +kernel) (by decide +kernel)),
    answers ((h sUp _ 50 0 (acts_of (by decide) rfl rfl) rfl).2.2.2.2 (by decide +kernel))⟩

def eth (n : Nat) : List Byte := [2, 0, 0, 0, 0, 1, 2, 0, 0, 0, 0, 2, 0x88, 0xB5] ++ List.replicate (n - 14) 0

def vRx : Frame := { port := 0, bytePs := 80, startAt := 0, bytes := eth 40 }

def sRx : State := { sUp with boot.state := .complete, buf.frames := [(3, vRx), (4, { vRx with refused := true })], buf.nextFrame := 5 }

theorem meets_FramesEnterStagingAndEnd (h : Obligations.FramesEnterStagingAndEnd) :
    Answers (exec (.rxFrameStart 50 0 (eth 14)) sUp) ∧
    Answers (exec (.rxFrameEnd 50 3 (List.replicate 23 0) false { fragments := 2 }) sRx) ∧
    Answers (exec (.rxFrameEnd 50 4 (List.replicate 24 0) false { }) sRx) ∧
    Answers (exec (.rxFrameEnd 50 3 (List.replicate 24 0) true { }) sRx) :=
  ⟨answers ((h sUp _ 50 0 0 vRx (eth 14) [] false {} (acts_of (by decide) rfl rfl) rfl).1 (by decide +kernel) (by decide +kernel)),
    answers ((h sRx _ 50 0 3 vRx [] (List.replicate 23 0) false { fragments := 2 } (acts_of (by decide) rfl rfl) rfl).2.1
      (by decide +kernel) (by decide +kernel) (by decide +kernel)),
    answers ((h sRx _ 50 0 4 { vRx with refused := true } [] (List.replicate 24 0) false {} (acts_of (by decide) rfl rfl)
      rfl).2.2.1 _ (by decide +kernel) (by decide +kernel) (by decide +kernel) (by decide +kernel) (.inl rfl) rfl),
    answers ((h sRx _ 50 0 3 vRx [] (List.replicate 24 0) true {} (acts_of (by decide) rfl rfl) rfl).2.2.2 (by decide +kernel)
      (by decide +kernel) (by decide +kernel) (by decide +kernel) (show _ by decide +kernel) (by decide +kernel)
      (by decide +kernel) (by decide +kernel) (by decide +kernel) (show _ by decide +kernel) (by decide +kernel)
      (by decide +kernel) (by decide +kernel) (by decide +kernel) (show _ by decide +kernel))⟩

def vStaged : Frame := { vRx with bytes := eth 64, endAt := some 10 }

def sParse : State := { sRx with buf.frames := [(3, vStaged)] }

def sShut : State := { sParse with pow.state := .hold }

theorem meets_ParsingNumbersFrames (h : Obligations.ParsingNumbersFrames) :
    Answers (exec (.parse 50 3) sParse) ∧
    Answers (exec (.parse 50 3) sShut) :=
  ⟨answers ((h sParse _ 50 3 vStaged (acts_of (by decide) rfl rfl) rfl rfl (by decide +kernel) (by decide +kernel)
      (by decide +kernel) (by decide +kernel)).1 (show _ by decide +kernel) (by decide +kernel)),
    answers ((h sShut _ 50 3 vStaged (acts_of (by decide) rfl rfl) rfl rfl (by decide +kernel) (by decide +kernel)
      (by decide +kernel) (by decide +kernel)).2 (show _ by decide +kernel))⟩

def vClass : Frame := { vStaged with stage := .classifying }

def sClass : State := { sParse with buf.frames := [(3, vClass)] }

def sRow : State := { sClass with rules.rows := [(9, { valid := true, slots := 1 })] }

theorem meets_ClassificationGivesTheRowsAction (h : Obligations.ClassificationGivesTheRowsAction) :
    Answers (exec (.classificationDone 50 { f := 3 }) sRow) ∧
    Answers (exec (.classificationDone 50 { f := 3 }) sClass) :=
  ⟨answers ((h sRow _ 50 3 vClass 1 ((sRow.enter 50).vlanZone 1) _ (acts_of (by decide) rfl rfl) rfl rfl (by decide +kernel)
      (by decide +kernel) (by decide +kernel) (by decide +kernel) rfl (show _ by decide +kernel) (by decide +kernel) rfl
      (by decide +kernel)).1 9 { valid := true, slots := 1 } (by decide +kernel) (by decide +kernel)
      (by intro m w a x; simp [sRow, tfind] at x; omega)),
    answers ((h sClass _ 50 3 vClass 1 ((sClass.enter 50).vlanZone 1) _ (acts_of (by decide) rfl rfl) rfl rfl
      (by decide +kernel) (by decide +kernel) (by decide +kernel) (by decide +kernel) rfl (show _ by decide +kernel)
      (by decide +kernel) rfl (by decide +kernel)).2 (fun _ _ x => by cases x))⟩

def vDone : Frame := { vStaged with stage := .classified }

def sDone (v : Frame) : State := { sParse with buf.frames := [(3, v)] }

def sRel : State := sDone vDone

def sVoid : State := sDone { vDone with reason := 5 }

def vAwait : Frame := { vDone with stage := .flow, head := some 0, action := 1, key := some 5 }

def sAwait : State := sDone vAwait

def vKeyed : Frame := { vDone with p.outer.eth := true }

def sKeyed : State := { sDone vKeyed with dict.vals := [(0x300100, [3, 0, 0, 0, 0, 0, 0, 0, 0, 0, 0, 0, 0, 0, 0, 0])] }

def keyed : FlowKey × Bool := (flowKey (sKeyed.policyEntry 0) vKeyed none).getD (0, false)

def hHit : BitVec 512 := BitVec.ofNat 512 (1 + 2 ^ 3 + 3 * 2 ^ 16 + 5 * 2 ^ 372 + 2 ^ 384)

def vHit : Frame := { vDone with stage := .flow, head := some hHit, key := some (5 * 2 ^ 308), endAt := none }

def sHit : State := { sDone vHit with
  pow.unlocked := [], flow := { heads := [(12, hHit)], tails := [(3, 9)], backmap := [(3, backWord 12)], inUse := 1 } }

theorem meets_FramesAreReleasedAndJudged (h : Obligations.FramesAreReleasedAndJudged) :
    Answers (exec (.reorderRelease 50 { slice := 0 }) sVoid) ∧
    Answers (exec (.reorderRelease 50 { slice := 0 }) sRel) ∧
    Answers (exec (.reorderRelease 50 { slice := 0 }) sRel) ∧
    Answers (exec (.reorderRelease 50 { slice := 0 }) sKeyed) ∧
    Answers (exec (.flowVerdict 50 3 { }) sAwait) ∧
    Answers (exec (.flowVerdict 50 3 { }) sHit) ∧
    Answers (exec (.flowVerdict 50 3 { }) sHit) :=
  ⟨answers ((h.1 sVoid _ 50 0 [] 3 { vDone with reason := 5 } (acts_of (by decide) rfl rfl) rfl rfl (by decide +kernel)).1
      (by decide +kernel)),
    answers ((h.1 sRel _ 50 0 [] 3 vDone (acts_of (by decide) rfl rfl) rfl rfl (by decide +kernel)).2.1 (by decide +kernel)),
    answers ((h.1 sRel _ 50 0 [] 3 vDone (acts_of (by decide) rfl rfl) rfl rfl (by decide +kernel)).2.2.1 (by decide +kernel)
      (.inr (by decide +kernel))),
    answers ((h.1 sKeyed _ 50 0 [] 3 vKeyed (acts_of (by decide) rfl rfl) rfl rfl (by decide +kernel)).2.2.2 _ _ keyed.1 keyed.2
      (by decide +kernel) (by decide +kernel) rfl (by decide +kernel) rfl (show _ by decide +kernel)),
    answers ((h.2 sAwait _ 50 3 vAwait 0 (acts_of (by decide) rfl rfl) rfl rfl (by decide +kernel) (by decide +kernel)
      (by decide +kernel) rfl).1),
    answers ((h.2 sHit _ 50 3 vHit hHit (acts_of (by decide) rfl rfl) rfl rfl (by decide +kernel) (by decide +kernel)
      (by decide +kernel) rfl).2 12 (by decide +kernel) (show _ by decide +kernel) (by decide +kernel) (by decide +kernel)
      (by decide +kernel) |>.1),
    answers ((h.2 sHit _ 50 3 vHit hHit (acts_of (by decide) rfl rfl) rfl rfl (by decide +kernel) (by decide +kernel)
      (by decide +kernel) rfl).2 12 (by decide +kernel) (show _ by decide +kernel) (by decide +kernel) (by decide +kernel)
      (by decide +kernel) |>.2 (by decide +kernel) (show _ by decide +kernel) (by decide +kernel) (by decide +kernel)
      (by decide +kernel))⟩

end Sys2Proof.Tests.C

namespace Sys2Proof.Tests.D

def fBy : FlowAccess := { m := .marshal, found := [] }

def fKey : FlowKey := 5 * 2 ^ 308

def fHead (state extra : Nat) : BitVec 512 := BitVec.ofNat 512 (1 + state * 8 + 3 * 2 ^ 16 + 5 * 2 ^ 372 + extra)

def sFlow : State := { State.reset with
  pow.unlocked := [], dict.vals := [(0x300100, [5, 0, 0, 0, 0, 0, 1, 0, 0, 0, 0, 0, 0, 0, 0, 0]), (0x350001, [0, 0])]
  flow := { heads := [(12, fHead 0 0)], tails := [(3, 9)], backmap := [(3, backWord 12)], free := { runs := [(7, 10)] }, inUse := 1, key := fKey, cursor := 3, headReg := fHead 0 (2 ^ 394) } }

def sFlowBusy : State := { sFlow with flow.busy := true, flow.work := .flush { cmd := .flush true false false 0, cursor := 3, key := 5, mask := 0, head := 0, tail := 0, found := [], place := 0 } }

def sFlowNone : State := { sFlow with flow.key := 4 * 2 ^ 308 }

def sFlowBad : State := { sFlow with flow.key := 7 }

def sFlowEnd : State := { sFlow with flow.cursor := 67108864 }

def sFlowGated : State := { sFlow with pow.unlocked := [.memory] }

def xHome : Nat := (sFlow.candidates fKey).headD 0

def sFlowHome : State := { sFlow with flow.heads := [(xHome, fHead 0 0)], flow.backmap := [(3, backWord xHome)] }

def fJob : FlowJob := { cmd := .flush true false false 0, cursor := 3, key := 5, mask := 0, head := 0, tail := 0, found := [], place := 0 }

theorem meets_FlowSearchesAndFlushesRun (h : Obligations.FlowSearchesAndFlushesRun) :
    Answers (exec (.deleteSlot 50 { m := .host }) sFlowBusy) ∧
    Answers (exec (.flowSearch 50 fBy) sFlowBusy) ∧
    Answers (exec (.flowSearch 50 fBy) sFlowGated) ∧
    Answers (exec (.flowSearch 50 { m := .marshal, found := [{ ecc := Ecc.verdict, slot := some xHome }] }) sFlowHome) ∧
    Answers (exec (.flowSearch 50 fBy) sFlow) ∧
    Answers (exec (.flowSearch 50 fBy) sFlowNone) ∧
    Answers (exec (.flowSearch 50 fBy) sFlowBad) ∧
    Answers (exec (.flowNext 50 fBy true 0) sFlow) ∧
    Answers (exec (.flowNext 50 fBy true 0) sFlowEnd) ∧
    Answers (exec (.flowBadOp 50 fBy 9) sFlow) ∧
    Answers (exec (.flushMatch 50 fBy true true true 0) sFlow) ∧
    Answers (exec (.flushMatchComplete 50) sFlowBusy) :=
  ⟨answers (h.1 sFlowBusy _ 50 { m := .host, found := [] } true true true 1023 9 (acts_of (by decide) rfl rfl) rfl (.deleteSlot 50
      { m := .host, found := [] }) (by decide +kernel) |>.1 rfl),
    answers (h.1 sFlowBusy _ 50 fBy true true true 1023 9 (acts_of (by decide) rfl rfl) rfl (.flowSearch 50 fBy)
      (by decide +kernel) |>.2.1 rfl rfl),
    answers (h.1 sFlowGated _ 50 fBy true true true 1023 9 (acts_of (by decide) rfl rfl) rfl (.flowSearch 50 fBy)
      (by decide +kernel) |>.2.2 rfl rfl rfl),
    answers (h.2.1 sFlowHome _ 50 { m := .marshal, found := [{ ecc := .verdict, slot := some xHome }] } xHome (fHead 0 0)
      (acts_of (by decide) rfl rfl) rfl rfl rfl rfl rfl (by decide +kernel) (by decide +kernel) (by decide +kernel)
      (by decide +kernel)),
    answers ((h.2.2.1 sFlow _ 50 fBy (acts_of (by decide) rfl rfl) rfl rfl rfl rfl (by decide +kernel)).1 12 (fHead 0 0)
      (by decide +kernel) (by decide +kernel)),
    answers ((h.2.2.1 sFlowNone _ 50 fBy (acts_of (by decide) rfl rfl) rfl rfl rfl rfl (by decide +kernel)).2.1
      (by decide +kernel) (by decide +kernel)),
    answers ((h.2.2.1 sFlowBad _ 50 fBy (acts_of (by decide) rfl rfl) rfl rfl rfl rfl (by decide +kernel)).2.2.1
      (by decide +kernel)),
    answers ((h.2.2.1 sFlow _ 50 fBy (acts_of (by decide) rfl rfl) rfl rfl rfl rfl (by decide +kernel)).2.2.2.1 true 0 [(3,
      fHead 0 0)] 4099 (by decide +kernel) (by decide +kernel)),
    answers ((h.2.2.1 sFlowEnd _ 50 fBy (acts_of (by decide) rfl rfl) rfl rfl rfl rfl (by decide +kernel)).2.2.2.1 true 0 _ _
      (by decide +kernel) rfl),
    answers ((h.2.2.1 sFlow _ 50 fBy (acts_of (by decide) rfl rfl) rfl rfl rfl rfl (by decide +kernel)).2.2.2.2 9),
    answers ((h.2.2.2 sFlow _ 50 fBy true true true 0 fJob (acts_of (by decide) rfl rfl) rfl rfl).1 rfl rfl),
    answers ((h.2.2.2 sFlowBusy _ 50 fBy true false false 0 fJob (acts_of (by decide) rfl rfl) rfl rfl).2 0 rfl rfl)⟩

def sNew : State := { sFlow with flow.headReg := BitVec.ofNat 512 (4 * 2 ^ 372) }

def sExpiring : State := { sFlow with flow.heads := [(12, fHead 1 0)] }

def sSlot : State := { sFlow with flow.cursor := 12 }

theorem meets_FlowInsertsAndDeletesMoveRecords (h : Obligations.FlowInsertsAndDeletesMoveRecords) :
    Answers (exec (.flowInsert 50 fBy false) sFlow) ∧
    Answers (exec (.flowInsert 50 { m := .judges } true) sNew) ∧
    Answers (exec (.flowDelete 50 fBy) sFlow) ∧
    Answers (exec (.deleteTail 50 fBy) sFlow) ∧
    Answers (exec (.retire 50 fBy) sExpiring) ∧
    Answers (exec (.retire 50 fBy) sFlow) ∧
    Answers (exec (.deleteSlot 50 fBy) sSlot) :=
  ⟨answers ((h.1 sFlow _ 50 fBy false (acts_of (by decide) rfl rfl) rfl rfl rfl rfl (by decide +kernel) (by decide +kernel)
      (by decide +kernel)).1 12 (fHead 0 0) (by decide +kernel) (show _ by decide +kernel)),
    answers ((h.1 sNew _ 50 { m := .judges, found := [] } true (acts_of (by decide) rfl rfl) rfl rfl rfl rfl (by decide +kernel)
      (by decide +kernel) (by decide +kernel)).2 7 [(8, 9)] (((sNew.enter 50).candidates (Hd.key sNew.flow.headReg)).headD 0)
      (by decide +kernel) (show _ by decide +kernel) (by decide +kernel) (by decide +kernel)),
    answers ((h.2 sFlow _ 50 3 12 (fHead 0 0) fBy (acts_of (by decide) rfl rfl) rfl rfl rfl rfl (by decide +kernel)
      (by decide +kernel) (by decide +kernel) (by decide +kernel) (show _ by decide +kernel) (by decide +kernel)
      (by decide +kernel)).1 (by decide +kernel) (by decide +kernel)),
    answers ((h.2 sFlow _ 50 3 12 (fHead 0 0) fBy (acts_of (by decide) rfl rfl) rfl rfl rfl rfl (by decide +kernel)
      (by decide +kernel) (by decide +kernel) (by decide +kernel) (show _ by decide +kernel) (by decide +kernel)
      (by decide +kernel)).2.1 (by decide +kernel)),
    answers ((h.2 sExpiring _ 50 3 12 (fHead 1 0) fBy (acts_of (by decide) rfl rfl) rfl rfl rfl rfl (by decide +kernel)
      (by decide +kernel) (by decide +kernel) (by decide +kernel) (show _ by decide +kernel) (by decide +kernel)
      (by decide +kernel)).2.2.1 (by decide +kernel) (by decide +kernel)),
    answers ((h.2 sFlow _ 50 3 12 (fHead 0 0) fBy (acts_of (by decide) rfl rfl) rfl rfl rfl rfl (by decide +kernel)
      (by decide +kernel) (by decide +kernel) (by decide +kernel) (show _ by decide +kernel) (by decide +kernel)
      (by decide +kernel)).2.2.2.1 (by decide +kernel) (by decide +kernel)),
    answers ((h.2 sSlot _ 50 3 12 (fHead 0 0) fBy (acts_of (by decide) rfl rfl) rfl rfl rfl rfl (by decide +kernel)
      (by decide +kernel) (by decide +kernel) (by decide +kernel) (show _ by decide +kernel) (by decide +kernel)
      (by decide +kernel)).2.2.2.2 (by decide +kernel))⟩

def ins : Insert := { key := 4 * 2 ^ 308, head := BitVec.ofNat 512 (4 * 2 ^ 372), tail := 5 }

def sIns : State := { sFlow with flow.inserts := [ins] }

def mv : Move := { key := fKey, src := 12, dst := 13, copy := fHead 0 0 }

def insLive : Insert := { ins with live := true, path := [{ key := fKey, src := 12, dst := 13 }] }

def sMove : State := { sFlow with flow.inserts := [insLive], flow.cam := [mv] }

def fWit : Witness := { port := 0, metaData := 0, len := 64, time := 0, cls := 0, reverse := false, bytes := [] }

def sPat : State := { sFlow with flow.pat := [(2, { key := fKey, policy := 0, entry := 0, first := fWit, deadline := some 50 })], flow.exceptions := [[1], [2]], flow.notices := [[3]] }

def sPatRun : State := { sPat with proc.groups := [(2, { state := .running })] }

def ownRec : List Byte := List.replicate 76 0

def sPatIdle : State := { sPatRun with flow.exceptions := [] }

def sPatOwn : State := { sPatRun with flow.exceptions := [ownRec], proc.program := 3 }

def sPatBusy : State := { sPatOwn with flow.busy := true, flow.work := .flush fJob }

theorem meets_AdmissionsArePlacedAndTimed (h : Obligations.AdmissionsArePlacedAndTimed) :
    Answers (exec (.flowInsertPlace 50 { key := 4 * 2 ^ 308 }) sIns) ∧
    Answers (exec (.relocationMove 50 { key := 4 * 2 ^ 308 }) sMove) ∧
    Answers (exec (.judgeDeadlineExpiry 50 fKey) sPat) ∧
    Answers (exec (.admissionTokenRefill 50) sPat) ∧
    Answers (exec (.judgeExceptionTaken 50) sPatRun) ∧
    Answers (exec (.judgeExceptionTaken 50) sPatOwn) ∧
    Answers (exec (.judgeExceptionTaken 50) sPatBusy) ∧
    Answers (exec (.judgeExceptionTaken 50) sPatIdle) ∧
    Answers (exec (.expiryNoticeTaken 50) sPatRun) ∧
    Answers (exec (.judgeExceptionTaken 50) sPat) ∧
    Answers (exec (.expiryNoticeTaken 50) sPat) :=
  ⟨answers ((h.1 sIns _ 50 ins { key := 4 * 2 ^ 308, found := [] } (acts_of (by decide) rfl rfl) rfl rfl rfl (by decide +kernel)).1
      (((sIns.candidates ins.key)).headD 0) (by decide +kernel) rfl rfl rfl (by decide +kernel) rfl (by decide +kernel)),
    answers (((h.1 sMove _ 50 insLive { key := 4 * 2 ^ 308, found := [] } (acts_of (by decide) rfl rfl) rfl rfl rfl
      (by decide +kernel)).2 { key := fKey, src := 12, dst := 13 } [] mv (by decide +kernel) rfl (by decide +kernel)
      (by decide +kernel) (show _ by decide +kernel) (by decide +kernel)).2.2.2.2.2 { ins with live := false }
      (by decide +kernel)),
    answers ((h.2 sPat _ 50 (acts_of (by decide) rfl rfl) rfl).1 fKey 2
      { key := fKey, policy := 0, entry := 0, first := fWit, deadline := some 50 } 50 (by decide +kernel) rfl rfl
      (by decide +kernel)),
    answers ((h.2 sPat _ 50 (acts_of (by decide) rfl rfl) rfl).2.1),
    answers ((h.2 sPatRun _ 50 (acts_of (by decide) rfl rfl) rfl).2.2.1 (by decide +kernel) |>.2.1 [1] [[2]] rfl |>.1
      (by decide +kernel)),
    answers ((h.2 sPatOwn _ 50 (acts_of (by decide) rfl rfl) rfl).2.2.1 (by decide +kernel) |>.2.1 ownRec [] rfl |>.2.2
      (by decide +kernel) rfl rfl),
    answers ((h.2 sPatBusy _ 50 (acts_of (by decide) rfl rfl) rfl).2.2.1 (by decide +kernel) |>.2.1 ownRec [] rfl |>.2.1
      (by decide +kernel) rfl),
    answers ((h.2 sPatIdle _ 50 (acts_of (by decide) rfl rfl) rfl).2.2.1 (by decide +kernel) |>.1 rfl),
    answers ((h.2 sPatRun _ 50 (acts_of (by decide) rfl rfl) rfl).2.2.1 (by decide +kernel) |>.2.2),
    answers ((h.2 sPat _ 50 (acts_of (by decide) rfl rfl) rfl).2.2.2 (by decide +kernel) |>.1),
    answers ((h.2 sPat _ 50 (acts_of (by decide) rfl rfl) rfl).2.2.2 (by decide +kernel) |>.2)⟩

def sOld (x : Nat) : State := { sFlow with clock0 := { value := 10 * 1000000000 * 2 ^ 32 }, flow.tails := [], flow.heads := [(12, fHead 0 x)] }

def sOld0 : State := sOld 0

def sStall : State := { sOld (2 ^ 394) with flow.stalled := some 3 }

def sHdm : State := { sFlow with host := { proto := .cxl, memEn := true, decoders := [(0, { committed := true, base := 4096, size := 2 ^ 33 })] } }

def sHdmD : State := { sHdm with pow.state := .dormant }

def sHdmGated : State := { sHdm with pow.unlocked := [.memory] }

theorem meets_TheSweepAndTheHostSeeTheRecords (h : Obligations.TheSweepAndTheHostSeeTheRecords) :
    Answers (exec (.sweepVisit 50 { }) sFlow) ∧
    Answers (exec (.sweepVisit 50 { }) sOld0) ∧
    Answers (exec (.sweepResume 50) sStall) ∧
    Answers (exec (.hdmRead 50 (4096 + 12 * 64) Ecc.good) sHdmGated) ∧
    Answers (exec (.hdmRead 50 (4096 + 12 * 64) Ecc.good) sHdm) ∧
    Answers (exec (.hdmWrite 50 (4096 + 12 * 64)) sHdm) ∧
    Answers (exec (.hdmMeminv 50 (4096 + 2 ^ 33 - 1)) sHdm) ∧
    Answers (exec (.hdmDormantRead 50 (4096 + 12 * 64)) sHdmD) :=
  ⟨answers ((h.1 sFlow _ 50 3 12 (backWord 12) (fHead 0 0) (acts_of (by decide) rfl rfl) rfl (by decide +kernel)
      (by decide +kernel)).1 rfl rfl rfl (by decide +kernel) (by decide +kernel) (show _ by decide +kernel)),
    answers ((h.1 sOld0 _ 50 3 12 (backWord 12) (fHead 0 0) (acts_of (by decide) rfl rfl) rfl (by decide +kernel)
      (by decide +kernel)).2.1 rfl rfl rfl (by decide +kernel) (by decide +kernel) (show _ by decide +kernel)
      (by decide +kernel) (by decide +kernel) (by decide +kernel)),
    answers ((h.1 sStall _ 50 3 12 (backWord 12) (fHead 0 (2 ^ 394)) (acts_of (by decide) rfl rfl) rfl (by decide +kernel)
      (by decide +kernel)).2.2 rfl (by decide +kernel) (by decide +kernel) (show _ by decide +kernel) (by decide +kernel)
      (by decide +kernel)),
    answers ((h.2 sHdmGated _ 50 (4096 + 12 * 64) _ (upAt_of rfl rfl) rfl rfl).1 rfl rfl),
    answers ((h.2 sHdm _ 50 (4096 + 12 * 64) _ (upAt_of rfl rfl) rfl rfl).2.1 rfl rfl),
    answers ((h.2 sHdm _ 50 (4096 + 12 * 64) _ (upAt_of rfl rfl) rfl rfl).2.2.1),
    answers ((h.2 sHdm _ 50 (4096 + 2 ^ 33 - 1) _ (upAt_of rfl rfl) rfl rfl).2.2.2.1),
    answers ((h.2 sHdmD _ 50 (4096 + 12 * 64) _ (upAt_of rfl rfl) rfl rfl).2.2.2.2 rfl)⟩

end Sys2Proof.Tests.D

namespace Sys2Proof.Tests.E

def eFrame : Frame := { port := 1, bytePs := 80, startAt := 0, bytes := List.replicate 64 0, endAt := some 10, stage := .stored }

def eCopy : Copy := { frame := 3, port := 0, cls := 0, queue := 0, len := 64, charge := 1 }

def sOut : State := { State.reset with
  dict.vals := [(0x200001, [2])], pow.slices := [(0, { state := .run })], ports := [(0, { link := .up })]
  buf.frames := [(3, eFrame)], buf.copies := [(5, eCopy)]
  buf.finish := [(0, { fifo := [{ dom := 0, first := 0, last := 0, copies := none, at_ := 0 }] })] }

def sArr : State := { sOut with buf.finish := [(0, { fifo := [{ dom := 0, first := 0, last := 0, copies := some [5], at_ := 0 }] })] }

def sGap : State := { sOut with buf.finish := [(0, { waiting := [{ dom := 0, first := 9, last := 9, copies := none, at_ := 0 }] })] }

theorem meets_PhotoFinishReleasesInOrder (h : Obligations.PhotoFinishReleasesInOrder) :
    Answers (exec (.announcementArrive 50 0) sOut) ∧
    Answers (exec (.announcementArrive 50 0) sArr) ∧
    Answers (exec (.gapTimeout 300000000 0 0 0) sGap) :=
  ⟨answers ((h sOut _ 50 0 { dom := 0, first := 0, last := 0, copies := none, at_ := 0 } [] (acts_of (by decide) rfl rfl) rfl
      rfl).1 (by decide +kernel) (by decide +kernel) (by decide +kernel) (by decide +kernel) rfl),
    answers ((h sArr _ 50 0 { dom := 0, first := 0, last := 0, copies := some [5], at_ := 0 } [] (acts_of (by decide) rfl rfl)
      rfl rfl).2.1 [5] (by decide +kernel) (by decide +kernel) (by decide +kernel) (by decide +kernel) rfl
      (by intro c hc; simp at hc; subst hc; exact ⟨eCopy, (show _ by decide +kernel), (by decide +kernel), (by decide +kernel), (by decide +kernel)⟩)),
    answers ((h sGap _ 300000000 0 { dom := 0, first := 9, last := 9, copies := none, at_ := 0 } [] (acts_of (by decide) rfl
      rfl) rfl rfl).2.2 0 0 (by decide +kernel) rfl (by decide +kernel) rfl (by decide +kernel))⟩

def sQ (k : Copy) : State := { sOut with buf.copies := [(5, k)], queues := [(0, { fifo := [5], deficit := 100 })], rounds := [(0, [0])] }

def sQVoid : State := sQ { eCopy with void := true, queued := true }

def sQNew : State := sQ { eCopy with queued := true }

def sQReady : State := sQ { eCopy with queued := true, checked := true, headAt := some 0 }

def kHost : Copy := { eCopy with port := 32, queue := 256, queued := true, ring := 16 }

def sHostNew : State := { sOut with
  host := { proto := .cxl, busMaster := true, rings := [(16, { baseLo := 1, state := .running, rxPosted := [List.replicate 8 0 ++ [0, 1] ++ List.replicate 22 0] })] }
  buf.copies := [(5, kHost)], queues := [(256, { fifo := [5], deficit := 100 })], rounds := [(256, [256])] }

def atH : Copy × State := (sHostNew.enter 50).atHead 5 { kHost with ring := (sHostNew.enter 50).rxRing kHost.cls } eFrame

def sHostReady : State := { sHostNew with buf.copies := [(5, { kHost with checked := true })] }

def sQTx : State := { sQ { eCopy with checked := true } with queues := [], rounds := [], egress := [(0, { tx := some { copy := 5, startAt := 0, bytePs := 80 } })] }

theorem meets_CopiesAreCheckedSentAndEnd (h : Obligations.CopiesAreCheckedSentAndEnd) :
    Answers (exec (.copyBecomesHead 50 0 0) sQVoid) ∧
    Answers (exec (.copyBecomesHead 50 0 0) sQNew) ∧
    Answers (exec (.copyBecomesHead 50 32 0) sHostNew) ∧
    Answers (exec (.txStart 50 32 Ecc.good) sHostReady) ∧
    Answers (exec (.txStart 50 0 Ecc.good) sQReady) ∧
    Answers (exec (.copyTxEnd 5760 0 Ecc.good) sQTx) :=
  ⟨answers ((h sQVoid _ 50 0 0 5 { eCopy with void := true, queued := true } eFrame (acts_of (by decide) rfl rfl) rfl).1 rfl
      (by decide +kernel) rfl),
    answers ((h sQNew _ 50 0 0 5 { eCopy with queued := true } eFrame (acts_of (by decide) rfl rfl) rfl).2.1 rfl
      (by decide +kernel) rfl (by decide +kernel) (by decide +kernel) (by decide +kernel) (show _ by decide +kernel)
      (by decide +kernel) (by decide +kernel)),
    answers ((h sHostNew _ 50 32 0 5 kHost eFrame (acts_of (by decide) rfl rfl) rfl).2.2.1 atH.1 atH.2 (atH.2.wanted 3 eFrame
      atH.1).2 rfl (by decide +kernel) rfl (by decide +kernel) rfl rfl rfl rfl (Prod.ext (by decide +kernel) rfl)
      (by decide +kernel)),
    answers ((h sHostReady _ 50 32 0 5 { kHost with checked := true } eFrame (acts_of (by decide) rfl rfl) rfl).2.2.2.1 _ rfl
      (by decide +kernel) (by decide +kernel) (by decide +kernel) rfl (by decide +kernel)),
    answers ((h sQReady _ 50 0 0 5 { eCopy with queued := true, checked := true, headAt := some 0 } eFrame (acts_of (by decide)
      rfl rfl) rfl).2.2.2.2.1 0 (((sQReady.enter 50).choose (0 : Fin 34) ((sQReady.enter 50).classes (0 : Fin 34) false)).2) rfl
      (by decide +kernel) (by decide +kernel) (by decide +kernel) (by decide +kernel) (show _ by decide +kernel)
      (by decide +kernel) (by decide +kernel) (by decide +kernel) (by decide +kernel) (show _ by decide +kernel)),
    answers ((h sQTx _ 5760 0 0 5 { eCopy with checked := true } eFrame (acts_of (by decide) rfl rfl) rfl).2.2.2.2.2 _
      (by decide +kernel) rfl (by decide +kernel) (by decide +kernel) (by decide +kernel) (show _ by decide +kernel))⟩

def sGate : State := { sOut with
  egress := [(0, { oper := { enabled := true, cycle := 1000, preempt := 2, classes := 1, list := [1, 0, 0, 0, 1, 0, 0, 0, 0xE7, 3, 0, 0, 0, 0, 0, 0] }, waiting := some ({ enabled := true, cycle := 1000 }, 0), preemption := .active }), (1, { preemption := .verifying }), (2, { flushing := true })]
  dict.staged := [(0x610001, [9, 0, 0, 0])] }

def xHold : Tx := { copy := 5, startAt := 0, bytePs := 80, preemptable := true }

def sHold : State := { sGate with
  egress := [(0, { oper := (sGate.egr 0).oper, preemption := .active, tx := some xHold })], buf.copies := [(5, { eCopy with len := 1000 })] }

theorem meets_GatesShapersAndPreemptionMove (h : Obligations.GatesShapersAndPreemptionMove) :
    Answers (exec (.shaperTick 50 0) sGate) ∧
    Answers (exec (.gateEntryChange 50 0) sGate) ∧
    Answers (exec (.gateSwap 50 0) sGate) ∧
    Answers (exec (.preemptHoldStart 50 0 0) sGate) ∧
    Answers (exec (.preemptHoldStart 50 0 0) sHold) ∧
    Answers (exec (.preemptionVerifyDone 50 1 false) sGate) ∧
    Answers (exec (.portFlushDone 50 2) sGate) :=
  ⟨answers ((h sGate _ 50 0 0 (acts_of (by decide) rfl rfl) rfl).1),
    answers ((h sGate _ 50 0 0 (acts_of (by decide) rfl rfl) rfl).2.1),
    answers ((h sGate _ 50 0 0 (acts_of (by decide) rfl rfl) rfl).2.2.1 { enabled := true, cycle := 1000 } 0 (by decide +kernel)
      (by decide +kernel)),
    answers ((h sGate _ 50 0 0 (acts_of (by decide) rfl rfl) rfl).2.2.2.1 (by decide +kernel) (by decide +kernel)),
    answers ((h sHold _ 50 0 0 (acts_of (by decide) rfl rfl) rfl).2.2.2.2.1 xHold { eCopy with len := 1000 } 60
      (by decide +kernel) (by decide +kernel) rfl (by decide +kernel) (by decide +kernel) (show _ by decide +kernel)
      (by decide +kernel)),
    answers ((h sGate _ 50 1 0 (acts_of (by decide) rfl rfl) rfl).2.2.2.2.2.1 false (by decide +kernel)),
    answers ((h sGate _ 50 0 0 (acts_of (by decide) rfl rfl) rfl).2.2.2.2.2.2 2 (by decide +kernel))⟩

end Sys2Proof.Tests.E

namespace Sys2Proof.Tests.F

def sRules : State := { State.reset with
  rules := { rows := [(9, { valid := true, slots := 1 }), (10, { valid := true, slots := 2 })], buf := 5, deferred := [{ row := 11, op := 0, key := 0, mask := 0, action := 0 }] }
  pow.slices := [(0, { state := .run })] }

def sRulesBusy : State := { sRules with rules.busy := true }

theorem meets_DirectRowOperationsActOrFail (h : Obligations.DirectRowOperationsActOrFail) :
    Answers (exec (.ruleRefresh 50 .host 9) sRulesBusy) ∧
    Answers (exec (.ruleInvalidate 50 .marshal 9) sRulesBusy) ∧
    Answers (exec (.ruleRefresh 50 .marshal 10) sRules) ∧
    Answers (exec (.ruleInvalidate 50 .marshal 9) sRules) ∧
    Answers (exec (.ruleWriteValidate 50 .marshal 9) sRules) ∧
    Answers (exec (.ruleRefresh 50 .marshal 9) sRules) ∧
    Answers (exec (.ruleOpComplete 50) sRulesBusy) :=
  ⟨answers ((h sRulesBusy _ 50 .host 9 (acts_of (by decide) rfl rfl) rfl).1 rfl (.ruleRefresh 50 .host 9) (by decide +kernel)),
    answers ((h sRulesBusy _ 50 .marshal 9 (acts_of (by decide) rfl rfl) rfl).2.1 rfl rfl (.ruleInvalidate 50 .marshal 9)
      (by decide +kernel)),
    answers ((h sRules _ 50 .marshal 10 (acts_of (by decide) rfl rfl) rfl).2.2.1 rfl rfl (by decide +kernel) (.ruleRefresh 50
      .marshal 10) (by decide +kernel)),
    answers ((h sRules _ 50 .marshal 9 (acts_of (by decide) rfl rfl) rfl).2.2.2.1 rfl rfl (by decide +kernel)),
    answers ((h sRules _ 50 .marshal 9 (acts_of (by decide) rfl rfl) rfl).2.2.2.2.1 rfl rfl (by decide +kernel)),
    answers ((h sRules _ 50 .marshal 9 (acts_of (by decide) rfl rfl) rfl).2.2.2.2.2.1 rfl rfl (by decide +kernel)),
    answers ((h sRulesBusy _ 50 .host 9 (acts_of (by decide) rfl rfl) rfl).2.2.2.2.2.2 rfl (by decide +kernel))⟩

def sPrep : State := { sRules with rules.prep := .preparing, rules.deferred := [] }

def sRebuild : State := { sRules with buf.rebuilding := true }

def sSamp : State := { sRules with dict.vals := [(0xE10001, [1])] }

theorem meets_BundlesArePreparedAndTablesScrubbed (h : Obligations.BundlesArePreparedAndTablesScrubbed) :
    Answers (exec (.bundlePrepared 50) sPrep) ∧
    Answers (exec (.deferredAddWrite 50 11) sRules) ∧
    Answers (exec (.tcamScrub 50 0 9 false) sRules) ∧
    Answers (exec (.tcamScrub 50 0 9 true) sRules) ∧
    Answers (exec (.freeListRebuild 50 { tile := 4095, word := 1 }) sRules) ∧
    Answers (exec (.freeListRebuild 50 { tile := 4095, word := 1 }) sRebuild) ∧
    Answers (exec (.samplerTokenRefill 50 0) sSamp) :=
  ⟨answers ((h sPrep _ 50 (acts_of (by decide) rfl rfl) rfl).1 rfl rfl rfl),
    answers ((h sRules _ 50 (acts_of (by decide) rfl rfl) rfl).2.1 11 { row := 11, op := 0, key := 0, mask := 0, action := 0 }
      (by decide +kernel) (by decide +kernel) (by decide +kernel)),
    answers (((h sRules _ 50 (acts_of (by decide) rfl rfl) rfl).2.2.1 0 9 rfl).1),
    answers (((h sRules _ 50 (acts_of (by decide) rfl rfl) rfl).2.2.1 0 9 rfl).2 { valid := true, slots := 1 }
      (by decide +kernel)),
    answers ((h sRules _ 50 (acts_of (by decide) rfl rfl) rfl).2.2.2.1 { tile := 4095, word := 1, corrected := false } rfl
      (by decide +kernel) (by decide +kernel)),
    answers ((h sRebuild _ 50 (acts_of (by decide) rfl rfl) rfl).2.2.2.2.1 { tile := 4095, word := 1, corrected := false } rfl),
    answers ((h sSamp _ 50 (acts_of (by decide) rfl rfl) rfl).2.2.2.2.2 0 _ rfl)⟩

end Sys2Proof.Tests.F

namespace Sys2Proof.Tests.G

def fe (vid mac port extra : Nat) : BitVec 128 := BitVec.ofNat 128 (mac + vid * 2 ^ 48 + 2 ^ 60 + port * 2 ^ 77 + extra)

def lr : LearnReq := { vid := 1, mac := 0x020000000002, port := 3, slice := 0 }

def sFdb : State := { State.reset with fdb := { entries := [(100, fe 1 0x020000000009 4 0)], queue := [lr], ageOuts := [100], walk := 100, keyLo := 0x00000009, keyHi := 0x0010200 , entry := fe 1 0x020000000009 4 0, cursor := 100 } }

def sFdbLearn : State := { sFdb with fdb.ageOuts := [] }

def sFdbMove : State := { sFdbLearn with fdb.entries := [(100, fe 1 0x020000000002 4 0)] }

def sFdbOld : State := { sFdb with fdb.tick := 4000, fdb.entries := [(100, fe 1 0x020000000009 4 (2 ^ 127))] }

theorem meets_LearningAndAgingChangeOneEntry (h : Obligations.LearningAndAgingChangeOneEntry) :
    Answers (exec (.learnCommit 50) sFdbLearn) ∧
    Answers (exec (.learnCommit 50) sFdbMove) ∧
    Answers (exec (.ageTick 200000000000) sFdb) ∧
    Answers (exec (.ageTick 50) sFdb) ∧
    Answers (exec (.fdbWalkVisit 50 Ecc.good) sFdbOld) ∧
    Answers (exec (.fdbWalkVisit 50 Ecc.head) sFdbOld) ∧
    Answers (exec (.fdbAgeOut 50) sFdbOld) ∧
    Answers (exec (.fdbAgeOut 50) sFdb) :=
  ⟨answers (((h sFdbLearn _ 50 (acts_of (by decide) rfl rfl) rfl).1 lr [] rfl (by decide +kernel) rfl rfl (by decide +kernel)).1
      84176 (by decide +kernel) (by decide +kernel)),
    answers (((h sFdbMove _ 50 (acts_of (by decide) rfl rfl) rfl).1 lr [] rfl (by decide +kernel) rfl rfl (by decide +kernel)).2
      100 (fe 1 0x020000000002 4 0) (by decide +kernel) (by decide +kernel) (show _ by decide +kernel) (by decide +kernel)
      (by decide +kernel) (by decide +kernel) (by decide +kernel)),
    answers ((h sFdb _ 200000000000 (acts_of (by decide) rfl rfl) rfl).2.1 (by decide +kernel)),
    answers ((h sFdb _ 50 (acts_of (by decide) rfl rfl) rfl).2.2.1 (by decide +kernel)),
    answers (((h sFdbOld _ 50 (acts_of (by decide) rfl rfl) rfl).2.2.2.1 100 _ rfl (by decide +kernel) rfl rfl).1),
    answers (((h sFdbOld _ 50 (acts_of (by decide) rfl rfl) rfl).2.2.2.1 100 _ rfl (by decide +kernel) rfl rfl).2 .head
      (by decide +kernel) (by decide +kernel)),
    answers (((h sFdbOld _ 50 (acts_of (by decide) rfl rfl) rfl).2.2.2.2 100 [] (by decide +kernel) rfl).1 (by decide +kernel)
      (by decide +kernel)),
    answers (((h sFdb _ 50 (acts_of (by decide) rfl rfl) rfl).2.2.2.2 100 [] (by decide +kernel) rfl).2 (.inr
      (by decide +kernel)))⟩

def sFdbBusy : State := { sFdb with fdb.busy := true, fdb.flushes := [{ port := 4, vid := none, withPin := true, command := true }] }

def sFdbNone : State := { sFdb with fdb.entries := [] }

def sFdbVid : State := { sFdb with fdb.keyHi := 0xFFF0000 }

def sFdbEnd : State := { sFdb with fdb.cursor := 1050624 }

def sFdbExcl : State := { sFdb with fdb.excluded := [(100, true)], fdb.entries := [] }

theorem meets_FdbCommandsShowAndChangeOneEntry (h : Obligations.FdbCommandsShowAndChangeOneEntry) :
    Answers (exec (.fdbSearch 50 .host) sFdbBusy) ∧
    Answers (exec (.fdbSearch 50 .marshal) sFdbBusy) ∧
    Answers (exec (.fdbSearch 50 .marshal) sFdb) ∧
    Answers (exec (.fdbSearch 50 .marshal) sFdbNone) ∧
    Answers (exec (.fdbDelete 50 .marshal) sFdbVid) ∧
    Answers (exec (.fdbBadOp 50 .marshal 9) sFdb) ∧
    Answers (exec (.fdbNext 50 .marshal true true 4 1) sFdb) ∧
    Answers (exec (.fdbNext 50 .marshal true true 4 1) sFdbEnd) ∧
    Answers (exec (.fdbInsert 50 .marshal) sFdb) ∧
    Answers (exec (.fdbInsert 50 .marshal) sFdbNone) ∧
    Answers (exec (.fdbDelete 50 .marshal) sFdb) ∧
    Answers (exec (.fdbDelete 50 .marshal) sFdbNone) ∧
    Answers (exec (.fdbDeleteIndex 50 .marshal) sFdbExcl) ∧
    Answers (exec (.fdbDeleteIndex 50 .marshal) sFdb) ∧
    Answers (exec (.fdbDeleteIndex 50 .marshal) sFdbEnd) :=
  ⟨answers ((h.1 sFdbBusy _ 50 .host true true true 0 1 9 (acts_of (by decide) rfl rfl) rfl).1 rfl (.fdbSearch 50 .host)
      (by decide +kernel)),
    answers ((h.1 sFdbBusy _ 50 .marshal true true true 0 1 9 (acts_of (by decide) rfl rfl) rfl).2.1 rfl rfl (.fdbSearch 50
      .marshal) (by decide +kernel)),
    answers ((h.1 sFdb _ 50 .marshal true true true 0 1 9 (acts_of (by decide) rfl rfl) rfl).2.2.1 100 (fe 1 0x020000000009 4 0)
      rfl rfl (by decide +kernel) (by decide +kernel)),
    answers ((h.1 sFdbNone _ 50 .marshal true true true 0 1 9 (acts_of (by decide) rfl rfl) rfl).2.2.2.1 rfl rfl
      (by decide +kernel) (by decide +kernel)),
    answers ((h.1 sFdbVid _ 50 .marshal true true true 0 1 9 (acts_of (by decide) rfl rfl) rfl).2.2.2.2.1 rfl rfl
      (by decide +kernel) (.fdbDelete 50 .marshal) (by decide +kernel)),
    answers ((h.1 sFdb _ 50 .marshal true true true 0 1 9 (acts_of (by decide) rfl rfl) rfl).2.2.2.2.2.1 rfl rfl),
    answers ((h.1 sFdb _ 50 .marshal true true true 4 1 9 (acts_of (by decide) rfl rfl) rfl).2.2.2.2.2.2 [(100, fe 1
      0x020000000009 4 0)] 4196 rfl rfl (by decide +kernel) (by decide +kernel) (by decide +kernel) (by decide +kernel)),
    answers ((h.1 sFdbEnd _ 50 .marshal true true true 4 1 9 (acts_of (by decide) rfl rfl) rfl).2.2.2.2.2.2 [] 1050624 rfl rfl
      (by decide +kernel) (by decide +kernel) (by decide +kernel) (by decide +kernel)),
    answers (((h.2 sFdb _ 50 .marshal (acts_of (by decide) rfl rfl) rfl rfl rfl).1 (by decide +kernel) (by decide +kernel)).1
      100 (fe 1 0x020000000009 4 0) (by decide +kernel)),
    answers (((h.2 sFdbNone _ 50 .marshal (acts_of (by decide) rfl rfl) rfl rfl rfl).1 (by decide +kernel)
      (by decide +kernel)).2.1 266504 (by decide +kernel) (by decide +kernel)),
    answers (((h.2 sFdb _ 50 .marshal (acts_of (by decide) rfl rfl) rfl rfl rfl).2.1 (by decide +kernel)).1 100 (fe 1
      0x020000000009 4 0) (by decide +kernel)),
    answers (((h.2 sFdbNone _ 50 .marshal (acts_of (by decide) rfl rfl) rfl rfl rfl).2.1 (by decide +kernel)).2
      (by decide +kernel)),
    answers (((h.2 sFdbExcl _ 50 .marshal (acts_of (by decide) rfl rfl) rfl rfl rfl).2.2 100 rfl (by decide +kernel)).1
      (by decide +kernel)),
    answers (((h.2 sFdb _ 50 .marshal (acts_of (by decide) rfl rfl) rfl rfl rfl).2.2 100 rfl (by decide +kernel)).2.1
      (by decide +kernel) (by decide +kernel)),
    answers (((h.2 sFdbEnd _ 50 .marshal (acts_of (by decide) rfl rfl) rfl rfl rfl).2.2 1050624 rfl (by decide +kernel)).2.2
      (by decide +kernel) (by decide +kernel))⟩

def sShadow (c : Bool) : State := { sFdb with dict.vals := [(0x244001, [1])], fdb.diffs := [{ index := 100, at_ := 0, changed := c }] }

def sShadow1 : State := sShadow false

def sShadow2 : State := sShadow true

theorem meets_FlushesAndShadowsRunToTheEnd (h : Obligations.FlushesAndShadowsRunToTheEnd) :
    Answers (exec (.flushPort 50 .marshal true true 33 4094) sFdb) ∧
    Answers (exec (.fdbFlushComplete 50) sFdbBusy) ∧
    Answers (exec (.shadowFetch 50 true (List.replicate 4096 0)) sShadow1) ∧
    Answers (exec (.shadowFetch 50 false (List.replicate 4096 0)) sShadow1) ∧
    Answers (exec (.shadowConfirmFetch 20000000000 false 100 0) sShadow1) ∧
    Answers (exec (.shadowConfirmFetch 20000000000 true 100 0) sShadow2) ∧
    Answers (exec (.shadowConfirmFetch 20000000000 true 100 (2 ^ 61 + 2 ^ 60)) sShadow1) :=
  ⟨answers ((h sFdb _ 50 (acts_of (by decide) rfl rfl) rfl).1 .marshal true true 33 0xFFE rfl rfl (by decide +kernel)
      (by decide +kernel)),
    answers ((h sFdbBusy _ 50 (acts_of (by decide) rfl rfl) rfl).2.1 _ [] rfl),
    answers (((h sShadow1 _ 50 (acts_of (by decide) rfl rfl) rfl).2.2.1 (List.replicate 4096 0) (by decide +kernel)).1),
    answers (((h sShadow1 _ 50 (acts_of (by decide) rfl rfl) rfl).2.2.1 (List.replicate 4096 0) (by decide +kernel)).2),
    answers (((h sShadow1 _ 20000000000 (acts_of (by decide) rfl rfl) rfl).2.2.2 100 0 { index := 100, at_ := 0 }
      (by decide +kernel)).1),
    answers (((h sShadow2 _ 20000000000 (acts_of (by decide) rfl rfl) rfl).2.2.2 100 0
      { index := 100, at_ := 0, changed := true } (by decide +kernel)).2.1 (.inr rfl)),
    answers (((h sShadow1 _ 20000000000 (acts_of (by decide) rfl rfl) rfl).2.2.2 100 (2 ^ 61 + 2 ^ 60)
      { index := 100, at_ := 0 } (by decide +kernel)).2.2 (by decide +kernel) rfl)⟩

end Sys2Proof.Tests.G

namespace Sys2Proof.Tests.H

def sTime : State := { State.reset with
  proc.groups := [(1, { state := .running })]
  pow := { slices := [(0, { state := .nap }), (1, { state := .run, held := true })], spans := [{ slices := 1, start := 40, stop := 60 }], planEnd := 30 }
  red := { recovery := [(32767, { takeAny := false, at_ := some 0 })], nodes := [(8191, { mac := 5 })] } }

theorem meets_ClocksPlansAndHistoriesMove (h : Obligations.ClocksPlansAndHistoriesMove) :
    Answers (exec (.clockStep 50 1 (2 ^ 48 - 1) 999999999) sTime) ∧
    Answers (exec (.timeCapture 50 .marshal) sTime) ∧
    Answers (exec (.grandmasterChange 50 0
      { synchronised := true, identity := [1, 2, 3, 4, 5, 6, 7, 8], offset := 3, rate := some 7 }) sTime) ∧
    Answers (exec (.holdSpanStart 50 0) sTime) ∧
    Answers (exec (.holdSpanEnd 50 1) sTime) ∧
    Answers (exec (.wakePlanWrite 50 [] 10000000050) sTime) ∧
    Answers (exec (.wakePlanWrite 50 [] 77) sTime) ∧
    Answers (exec (.planExpired 50) sTime) ∧
    Answers (exec (.recoveryResetTimeout 1000000000000 32767) sTime) ∧
    Answers (exec (.nodeTableSweepVisit 1000000000000000 8191) sTime) ∧
    Answers (exec (.nodeTableSweepVisit 50 8191) sTime) :=
  ⟨answers ((h.1 sTime _ 50 (acts_of (by decide) rfl rfl) rfl).1 1 (2 ^ 48 - 1) 999999999 (by decide +kernel) (by decide +kernel)
      (by decide +kernel)),
    answers ((h.1 sTime _ 50 (acts_of (by decide) rfl rfl) rfl).2.1 .marshal rfl),
    answers ((h.1 sTime _ 50 (acts_of (by decide) rfl rfl) rfl).2.2.1 0
      { synchronised := true, identity := [1, 2, 3, 4, 5, 6, 7, 8], offset := 3, rate := some 7 } (by decide +kernel)),
    answers ((h.1 sTime _ 50 (acts_of (by decide) rfl rfl) rfl).2.2.2.1 0 (by decide +kernel) (by decide +kernel)),
    answers ((h.1 sTime _ 50 (acts_of (by decide) rfl rfl) rfl).2.2.2.2.1 1 (by decide +kernel)),
    answers ((h.1 sTime _ 50 (acts_of (by decide) rfl rfl) rfl).2.2.2.2.2.1 [] 10000000050 (by decide +kernel) |>.1
      (by decide +kernel)),
    answers ((h.1 sTime _ 50 (acts_of (by decide) rfl rfl) rfl).2.2.2.2.2.1 [] 77 (by decide +kernel) |>.2 (by decide +kernel)),
    answers ((h.1 sTime _ 50 (acts_of (by decide) rfl rfl) rfl).2.2.2.2.2.2 (by decide +kernel) (by decide +kernel)
      (by decide +kernel)),
    answers ((h.2 sTime _ 1000000000000 (acts_of (by decide) rfl rfl) rfl).1 32767 0 (by decide +kernel) (by decide +kernel)
      (by decide +kernel)),
    answers (((h.2 sTime _ 1000000000000000 (acts_of (by decide) rfl rfl) rfl).2 8191 { mac := 5 } (by decide +kernel)).1
      (by decide +kernel)),
    answers (((h.2 sTime _ 50 (acts_of (by decide) rfl rfl) rfl).2 8191 { mac := 5 } (by decide +kernel)).2 (by decide +kernel))⟩

end Sys2Proof.Tests.H

namespace Sys2Proof.Tests.I

def sPerst : State := { State.reset with ao.perstHigh := true, boot.step := 4 }

def sRings : List (Nat × Ring) := [(0, { baseLo := 1, state := .running, hostIdx := 2 }), (1, { state := .stopping }), (2, { baseLo := 1 }), (3, { coalEnd := some 50 }), (4, { baseLo := 1, state := .running, hostIdx := 1, fetched := [txDescOf (List.replicate 32 1)] }), (16, { baseLo := 1, state := .running }), (33, { baseLo := 1 })]

def sHost : State := { sPerst with host := { proto := .cxl, speed := 5, width := 8, cacheCap := true, memCap := true, busMaster := true, msixPending := [(7, true)], rings := sRings } }

def sOne : State := { sHost with host.rings := [(0, { baseLo := 1, state := .running, hostIdx := 2, fetched := [txDescOf []] })] }

theorem meets_TheHostLinkTrainsAndResets (h : Obligations.TheHostLinkTrainsAndResets) :
    Answers (exec (.hostLinkTrained 50 true 4 4 true false) sPerst) ∧
    Answers (exec (.hostLinkTrained 50 true 4 4 true false) sHost) ∧
    Answers (exec (.hostLinkReset 50 .conventional) sHost) ∧
    Answers (exec (.flr 50) sHost) ∧
    Answers (exec (.hostLinkError { at_ := 50 }) sHost) ∧
    Answers (exec (.hostLinkError { at_ := 50, recovered := true }) sHost) ∧
    Answers (exec (.flr 50) sPerst) ∧
    Answers (exec (.perstNRelease 50) State.reset) ∧
    Answers (exec (.configurationWrite 50 .cxlCache true) sHost) ∧
    Answers (exec (.configurationWrite 50 .cxlMem true) sHost) ∧
    Answers (exec (.configurationWrite 50 .msixMask true) sHost) ∧
    Answers (exec (.configurationWrite 50 .aspmL1 true) sHost) ∧
    Answers (exec (.configurationWrite 50 (.bar .bar2 (2 ^ 40)) true) sHost) ∧
    Answers (exec (.configurationWrite 50 (.aerSeverity 4194304) true) sHost) ∧
    Answers (exec (.configurationWrite 50 (.aerClear 1 2) true) sHost) ∧
    Answers (exec (.configurationWrite 50 .busMaster true) sHost) ∧
    Answers (exec (.configurationWrite 50 .busMaster false) sHost) ∧
    Answers (exec (.msixUnmask 50 none) sHost) ∧
    Answers (exec (.msixUnmask 50 (some 7)) sHost) ∧
    Answers (exec (.hdmDecoderCommit 50 1 0 (2 ^ 28) 0 1 true) sHost) ∧
    Answers (exec (.hdmDecoderCommit 50 0 0 1 0 1 true) sPerst) :=
  ⟨answers ((h sPerst _ 50 (acts_of (by decide) rfl rfl) rfl).1 true 4 4 true false (by decide +kernel) (by decide +kernel)
      (by decide +kernel) (by decide +kernel)),
    answers ((h sHost _ 50 (acts_of (by decide) rfl rfl) rfl).2.1 true 4 4 true false (by decide +kernel)),
    answers ((h sHost _ 50 (acts_of (by decide) rfl rfl) rfl).2.2.1 .conventional),
    answers ((h sHost _ 50 (acts_of (by decide) rfl rfl) rfl).2.2.2.1 (by decide +kernel)),
    answers ((h sHost _ 50 (acts_of (by decide) rfl rfl) rfl).2.2.2.2.1 (by decide +kernel)),
    answers ((h sHost _ 50 (acts_of (by decide) rfl rfl) rfl).2.2.2.2.2.1 (by decide +kernel)),
    answers ((h sPerst _ 50 (acts_of (by decide) rfl rfl) rfl).2.2.2.2.2.2.1 (by decide +kernel) .cxlMem true (.flr 50)
      (by decide +kernel)),
    answers ((h State.reset _ 50 (acts_of (by decide) rfl rfl) rfl).2.2.2.2.2.2.2.1),
    answers (((h sHost _ 50 (acts_of (by decide) rfl rfl) rfl).2.2.2.2.2.2.2.2.1 true (by decide +kernel)).1),
    answers (((h sHost _ 50 (acts_of (by decide) rfl rfl) rfl).2.2.2.2.2.2.2.2.1 true (by decide +kernel)).2.1),
    answers (((h sHost _ 50 (acts_of (by decide) rfl rfl) rfl).2.2.2.2.2.2.2.2.1 true (by decide +kernel)).2.2.1),
    answers (((h sHost _ 50 (acts_of (by decide) rfl rfl) rfl).2.2.2.2.2.2.2.2.1 true (by decide +kernel)).2.2.2.1),
    answers (((h sHost _ 50 (acts_of (by decide) rfl rfl) rfl).2.2.2.2.2.2.2.2.1 true (by decide +kernel)).2.2.2.2.1 .bar2 (2 ^
      40)),
    answers (((h sHost _ 50 (acts_of (by decide) rfl rfl) rfl).2.2.2.2.2.2.2.2.1 true (by decide +kernel)).2.2.2.2.2.1
      0x400000),
    answers (((h sHost _ 50 (acts_of (by decide) rfl rfl) rfl).2.2.2.2.2.2.2.2.1 true (by decide +kernel)).2.2.2.2.2.2.1 1 2),
    answers (((h sHost _ 50 (acts_of (by decide) rfl rfl) rfl).2.2.2.2.2.2.2.2.1 true (by decide +kernel)).2.2.2.2.2.2.2.1 (.inl
      rfl)),
    answers (((h sHost _ 50 (acts_of (by decide) rfl rfl) rfl).2.2.2.2.2.2.2.2.1 false (by decide +kernel)).2.2.2.2.2.2.2.2
      rfl),
    answers ((h sHost _ 50 (acts_of (by decide) rfl rfl) rfl).2.2.2.2.2.2.2.2.2.1 (by decide +kernel)),
    answers ((h sHost _ 50 (acts_of (by decide) rfl rfl) rfl).2.2.2.2.2.2.2.2.2.2.1 7 (by decide +kernel)),
    answers ((h sHost _ 50 (acts_of (by decide) rfl rfl) rfl).2.2.2.2.2.2.2.2.2.2.2.1 1 0 (2 ^ 28) 0 1 true true
      (by decide +kernel) (by decide +kernel) (by decide +kernel)),
    answers ((h sPerst _ 50 (acts_of (by decide) rfl rfl) rfl).2.2.2.2.2.2.2.2.2.2.2.2 0 0 1 0 1 true (by decide +kernel))⟩

theorem meets_RingsStartStopAndReport (h : Obligations.RingsStartStopAndReport) :
    Answers (exec (.ringStart 50 .host 2) State.reset) ∧
    Answers (exec (.ringConfigWrite 50 .host 2 .cfg 655360) sHost) ∧
    Answers (exec (.ringConfigWrite 50 .host 0 .cfg 9) sHost) ∧
    Answers (exec (.ringStart 50 .host 2) sHost) ∧
    Answers (exec (.ringStart 50 .host 33) sHost) ∧
    Answers (exec (.ringStart 50 .host 0) sHost) ∧
    Answers (exec (.ringStop 50 .host 0) sHost) ∧
    Answers (exec (.ringStop 50 .host 1) sHost) ∧
    Answers (exec (.ringStopped 50 1) sHost) ∧
    Answers (exec (.ringDoorbell 50 .host 0 65535 []) sHost) ∧
    Answers (exec (.ringDoorbell 50 .host 0 3 []) sHost) ∧
    Answers (exec (.ringDoorbell 50 .host 16 1 (List.replicate 32 0)) sHost) ∧
    Answers (exec (.ringCoalesceTimeout 50 3) sHost) :=
  ⟨answers ((h State.reset _ 50 .host 2 (acts_of (by decide) rfl rfl) rfl).1 rfl .cfg 0 0 [] (.ringStart 50 .host 2)
      (by decide +kernel)),
    answers ((h sHost _ 50 .host 2 (acts_of (by decide) rfl rfl) rfl).2.1 .cfg 0xA0000 rfl (by decide +kernel)),
    answers ((h sHost _ 50 .host 0 (acts_of (by decide) rfl rfl) rfl).2.2.1 .cfg 9 rfl (by decide +kernel)),
    answers ((h sHost _ 50 .host 2 (acts_of (by decide) rfl rfl) rfl).2.2.2.1 rfl (by decide +kernel) (by decide +kernel)
      (by decide +kernel) (by decide +kernel)),
    answers ((h sHost _ 50 .host 33 (acts_of (by decide) rfl rfl) rfl).2.2.2.1 rfl (by decide +kernel) (by decide +kernel)
      (by decide +kernel) (by decide +kernel)),
    answers ((h sHost _ 50 .host 0 (acts_of (by decide) rfl rfl) rfl).2.2.2.2.1 rfl (.inl (by decide +kernel))),
    answers ((h sHost _ 50 .host 0 (acts_of (by decide) rfl rfl) rfl).2.2.2.2.2.1 rfl (by decide +kernel)),
    answers ((h sHost _ 50 .host 1 (acts_of (by decide) rfl rfl) rfl).2.2.2.2.2.2.1 rfl (by decide +kernel)),
    answers ((h sHost _ 50 .host 1 (acts_of (by decide) rfl rfl) rfl).2.2.2.2.2.2.2.1 (by decide +kernel)),
    answers ((h sHost _ 50 .host 0 (acts_of (by decide) rfl rfl) rfl).2.2.2.2.2.2.2.2.1 0xFFFF [] rfl (by decide +kernel)),
    answers (((h sHost _ 50 .host 0 (acts_of (by decide) rfl rfl) rfl).2.2.2.2.2.2.2.2.2.1 3 [] rfl (by decide +kernel)).1 (.inl
      (by decide +kernel))),
    answers (((h sHost _ 50 .host 16 (acts_of (by decide) rfl rfl) rfl).2.2.2.2.2.2.2.2.2.1 1 (List.replicate 32 0) rfl
      (by decide +kernel)).2 (by decide +kernel) (by decide +kernel)),
    answers ((h sHost _ 50 .host 3 (acts_of (by decide) rfl rfl) rfl).2.2.2.2.2.2.2.2.2.2 50 (by decide +kernel)
      (by decide +kernel))⟩

def sWait : State := { sHost with host.rxWait := [(0, { copy := 5, stop := 50 })] }

def rFrame : Frame := { port := 1, bytePs := 80, startAt := 0, bytes := List.replicate 64 0, endAt := some 10, stage := .stored }

def sWaitCopy : State := { sWait with
  buf.frames := [(3, rFrame)], buf.copies := [(5, { frame := 3, port := 32, cls := 0, queue := 256, len := 64, charge := 1, queued := true, checked := true })],
  queues := [(256, { fifo := [5], deficit := 100 })], rounds := [(256, [256])] }

theorem meets_FramesCrossTheHostPort (h : Obligations.FramesCrossTheHostPort) :
    Answers (exec (.txDescriptorFetch 50 0 true (List.replicate 32 1)) sHost) ∧
    Answers (exec (.txDescriptorFetch 50 0 false (List.replicate 32 1)) sHost) ∧
    Answers (exec (.txDescriptorFetch 50 0 false (List.replicate 32 1)) sOne) ∧
    Answers (exec (.txFrameIntake 50 4 true (List.replicate 64 3)) sHost) ∧
    Answers (exec (.rxWaitLimit 50 0) sWait) ∧
    Answers (exec (.rxWaitLimit 50 0) sWaitCopy) :=
  ⟨answers (((h sHost _ 50 0 (acts_of (by decide) rfl rfl) rfl).1 (List.replicate 32 1) (by decide +kernel) (by decide +kernel)
      (by decide +kernel) (by decide +kernel) (show _ by decide +kernel)).1),
    answers (((h sHost _ 50 0 (acts_of (by decide) rfl rfl) rfl).1 (List.replicate 32 1) (by decide +kernel) (by decide +kernel)
      (by decide +kernel) (by decide +kernel) (show _ by decide +kernel)).2.1 (by decide +kernel)),
    answers (((h sOne _ 50 0 (acts_of (by decide) rfl rfl) rfl).1 (List.replicate 32 1) (by decide +kernel) (by decide +kernel)
      (by decide +kernel) (by decide +kernel) (show _ by decide +kernel)).2.2 (by decide +kernel)),
    answers ((h sHost _ 50 4 (acts_of (by decide) rfl rfl) rfl).2.1 (txDescOf (List.replicate 32 1)) [] true (List.replicate 64
      3) (by decide +kernel) (by decide +kernel) (by decide +kernel) (by decide +kernel) (show _ by decide +kernel)
      (by decide +kernel)),
    answers (((h sWait _ 50 0 (acts_of (by decide) rfl rfl) rfl).2.2 0 { copy := 5, stop := 50 } (by decide +kernel)
      (by decide +kernel)).2 (by decide +kernel)),
    answers (((h sWaitCopy _ 50 0 (acts_of (by decide) rfl rfl) rfl).2.2 0 { copy := 5, stop := 50 } (by decide +kernel)
      (by decide +kernel)).1 5
      { frame := 3, port := 32, cls := 0, queue := 256, len := 64, charge := 1, queued := true, checked := true } rFrame
      (by decide +kernel))⟩

def reg4 : BarData := { bytes := [0xFF, 0xFF, 0xFF, 0xFF] }

def sRegBusy : State := { linkUp with fdb.busy := true }

theorem meets_RegisterWritesReachTheirBlock (h : Obligations.RegisterWritesReachTheirBlock) :
    Answers (exec (.registerWrite 50 .host .bar0 294912 reg4) State.reset) ∧
    Answers (exec (.registerWrite 50 .host .bar0 294912 { bytes := [1, 2, 3] }) linkUp) ∧
    Answers (exec (.registerWrite 50 .marshal .bar0 294912 { bytes := [1, 2, 3, 4], full := false }) State.reset) ∧
    Answers (exec (.registerWrite 50 .marshal .bar4 4624 reg4) State.reset) ∧
    Answers (exec (.registerWrite 50 .host .bar0 131104 reg4) linkUp) ∧
    Answers (exec (.registerWrite 50 .host .bar0 520 reg4) linkUp) ∧
    Answers (exec (.registerWrite 50 .marshal .bar0 (294912 + 4 * 1023) reg4) State.reset) ∧
    Answers (exec (.registerWrite 50 .host .bar0 (294912 + 4 * 0) reg4) linkUp) ∧
    Answers (exec (.registerWrite 50 .host .bar2 4 reg4) linkUp) ∧
    Answers (exec (.registerWrite 50 .host .bar2 65540 reg4) linkUp) ∧
    Answers (exec (.registerWrite 50 .host .bar0 69636 reg4) linkUp) ∧
    Answers (exec (.registerWrite 50 .host .bar0 69636 reg4) sRegBusy) ∧
    Answers (exec (.registerWrite 50 .host .bar4 (4624 + 32 * 1) reg4) sHost) ∧
    Answers (exec (.registerWrite 50 .host .bar0 294920 { bytes := [1, 2, 3, 4, 5, 6, 7, 8] }) linkUp) :=
  ⟨answers ((h State.reset _ 50 .host reg4 0 (acts_of (by decide) rfl rfl) rfl).1 .bar0 0x48000 rfl),
    answers ((h linkUp _ 50 .host { bytes := [1, 2, 3] } 0 (acts_of (by decide) rfl rfl) rfl).2.1 .bar0 0x48000 rfl (.inl rfl)
      (.inl rfl)),
    answers ((h State.reset _ 50 .marshal { bytes := [1, 2, 3, 4], full := false } 0 (acts_of (by decide) rfl rfl) rfl).2.1
      .bar0 0x48000 rfl (.inr rfl) (.inr rfl)),
    answers ((h State.reset _ 50 .marshal reg4 0 (acts_of (by decide) rfl rfl) rfl).2.2.1 .bar4 0x1210 (by decide +kernel)
      (by decide +kernel)),
    answers (((h linkUp _ 50 .host reg4 _ (acts_of (by decide) rfl rfl) rfl).2.2.2.1 rfl rfl rfl rfl).1 .bar0 0x20020 (.inl rfl)
      (by decide +kernel) (by decide +kernel)),
    answers (((h linkUp _ 50 .host reg4 _ (acts_of (by decide) rfl rfl) rfl).2.2.2.1 rfl rfl rfl rfl).2.1 0x208
      (by decide +kernel)),
    answers (((h State.reset _ 50 .marshal reg4 _ (acts_of (by decide) rfl rfl) rfl).2.2.2.1 rfl rfl rfl rfl).2.2.1 1023),
    answers (((h linkUp _ 50 .host reg4 _ (acts_of (by decide) rfl rfl) rfl).2.2.2.1 rfl rfl rfl rfl).2.2.1 0),
    answers (((h linkUp _ 50 .host reg4 _ (acts_of (by decide) rfl rfl) rfl).2.2.2.1 rfl rfl rfl rfl).2.2.2.1 rfl
      (by decide +kernel)),
    answers (((h linkUp _ 50 .host reg4 _ (acts_of (by decide) rfl rfl) rfl).2.2.2.1 rfl rfl rfl rfl).2.2.2.2.1 rfl
      (by decide +kernel)),
    answers (((h linkUp _ 50 .host reg4 _ (acts_of (by decide) rfl rfl) rfl).2.2.2.1 rfl rfl rfl rfl).2.2.2.2.2.1
      (by decide +kernel)),
    answers (((h sRegBusy _ 50 .host reg4 _ (acts_of (by decide) rfl rfl) rfl).2.2.2.1 rfl rfl rfl rfl).2.2.2.2.2.2.1
      (by decide +kernel)),
    answers (((h sHost _ 50 .host reg4 _ (acts_of (by decide) rfl rfl) rfl).2.2.2.1 rfl rfl rfl rfl).2.2.2.2.2.2.2 1 rfl
      (by decide +kernel) (by decide +kernel)),
    answers ((h linkUp _ 50 .host { bytes := [1, 2, 3, 4, 5, 6, 7, 8] } 0 (acts_of (by decide) rfl rfl) rfl).2.2.2.2 .bar0
      0x48008 rfl (.inl rfl) (by decide +kernel) rfl rfl rfl)⟩

end Sys2Proof.Tests.I

namespace Sys2Proof.Tests.J

def sBusy : State := { linkUp with dict := { secure := { busy := true }, nonsecure := { busy := true } } }

theorem meets_AbortedCommandsHaveNoEffect (h : Obligations.AbortedCommandsHaveNoEffect) :
    Answers (exec (.read 50 .marshal 8191 0) State.reset) ∧
    Answers (exec (.blockSeg 50 .marshal 20481 0 0 []) State.reset) ∧
    Answers (exec (.unknownOpcode 50 .judge 255) State.reset) ∧
    Answers (exec (.read 50 .secure 8191 0) linkUp) ∧
    Answers (exec (.write 50 .nonsecure 4354 0 [1, 0, 0, 0]) linkUp) ∧
    Answers (exec (.commit 50 .secure 18 []) sBusy) ∧
    Answers (exec (.commit 50 .nonsecure 18 []) sBusy) ∧
    Answers (exec (.commit 50 .nonsecure 18 []) State.reset) :=
  ⟨answers ((h State.reset _ 50 .marshal (acts_of (by decide) rfl rfl) rfl ⟨rfl, rfl⟩).1 (.read 50 .marshal 0x1FFF 0)
      { op := .read, idx := 0x1FFF, sub := 0 } 0x08300000 rfl rfl (by decide +kernel)),
    answers ((h State.reset _ 50 .marshal (acts_of (by decide) rfl rfl) rfl ⟨rfl, rfl⟩).1 (.blockSeg 50 .marshal 0x5001 0 0 [])
      { op := .blockSeg, idx := 0x5001, sub := 0, seg := 0, data := [] } 0x08900003 rfl rfl (by decide +kernel)),
    answers ((h State.reset _ 50 .judge (acts_of (by decide) rfl rfl) rfl ⟨rfl, rfl⟩).2.1 0xFF 0xFF rfl rfl),
    answers ((h linkUp _ 50 .judge (acts_of (by decide) rfl rfl) rfl ⟨rfl, rfl⟩).2.2.1 (.read 50 .secure 0x1FFF 0)
      { op := .read, idx := 0x1FFF, sub := 0 } 0x08300000 (by decide +kernel) rfl (by decide +kernel) (by decide +kernel)
      (by decide +kernel)),
    answers ((h linkUp _ 50 .judge (acts_of (by decide) rfl rfl) rfl ⟨rfl, rfl⟩).2.2.2.1 (.write 50 .nonsecure 0x1102 0 [1, 0,
      0, 0]) { op := .write, idx := 0x1102, sub := 0, data := [1, 0, 0, 0] } 0x08100001 (by decide +kernel) rfl
      (by decide +kernel) (by decide +kernel) (by decide +kernel)),
    answers ((h sBusy _ 50 .judge (acts_of (by decide) rfl rfl) rfl ⟨rfl, rfl⟩).2.2.2.2.1 (.commit 50 .secure 0x12 [])
      { op := .commit, sub := 0x12 } (by decide +kernel) rfl rfl),
    answers ((h sBusy _ 50 .judge (acts_of (by decide) rfl rfl) rfl ⟨rfl, rfl⟩).2.2.2.2.2.1 (.commit 50 .nonsecure 0x12 [])
      { op := .commit, sub := 0x12 } (by decide +kernel) rfl rfl),
    answers ((h State.reset _ 50 .judge (acts_of (by decide) rfl rfl) rfl ⟨rfl, rfl⟩).2.2.2.2.2.2 (.commit 50 .nonsecure 0x12
      []) { op := .commit, sub := 0x12 } .nonsecure rfl (.inr rfl) rfl)⟩

theorem meets_BusyWindowsDropWrites (h : Obligations.BusyWindowsDropWrites) :
    Answers (exec (.registerWrite 50 .host .bar2 0 { bytes := [1, 0, 0, 0, 2, 0, 0, 0] }) sBusy) ∧
    Answers (exec (.registerWrite 50 .host .bar2 8188 { bytes := [1, 0, 0, 0] }) sBusy) ∧
    Answers (exec (.registerWrite 50 .host .bar2 (65536 + 8) { bytes := [1, 0, 0, 0] }) sBusy) :=
  ⟨answers ((h sBusy _ 50 0 { bytes := [1, 0, 0, 0, 2, 0, 0, 0] } (acts_of (by decide) rfl rfl) rfl (by decide +kernel) rfl
      (by decide +kernel)).1 rfl (by decide +kernel)),
    answers ((h sBusy _ 50 0x1FFC { bytes := [1, 0, 0, 0] } (acts_of (by decide) rfl rfl) rfl (by decide +kernel) rfl
      (by decide +kernel)).1 rfl (by decide +kernel)),
    answers ((h sBusy _ 50 8 { bytes := [1, 0, 0, 0] } (acts_of (by decide) rfl rfl) rfl (by decide +kernel) rfl
      (by decide +kernel)).2 rfl (by decide +kernel))⟩

def sLease : State := { State.reset with pair := { role := .active } }

def sHeld : State := { linkUp with pair := { role := .held } }

theorem meets_WarmResetIsRefusedUnderALease (h : Obligations.WarmResetIsRefusedUnderALease) :
    Answers (exec (.warmResetRequest 50 .marshal) sLease) ∧
    Answers (exec (.warmResetRequest 50 .secure) sHeld) :=
  ⟨answers ((h sLease _ 50 .marshal (acts_of (by decide) rfl rfl) rfl (.inl rfl) (by decide +kernel) (by decide +kernel)
      (by decide +kernel)).2.1 ⟨rfl, rfl⟩ rfl),
    answers ((h sHeld _ 50 .secure (acts_of (by decide) rfl rfl) rfl (.inr rfl) (by decide +kernel) (by decide +kernel)
      (by decide +kernel)).2.2 ⟨rfl, rfl⟩ rfl (by decide +kernel) rfl)⟩

def sAsleep : State := { State.reset with pow.state := .dormant }

def sTimes : State := { State.reset with boot.state := .complete, proc.groups := [(1, { state := .running })], proc.cores := [(4, { mode := .wait })] }

theorem meets_EntriesAreReadAndWritten (h : Obligations.EntriesAreReadAndWritten) :
    Answers (exec (.read 50 .marshal 4120 0) sAsleep) ∧
    Answers (exec (.read 50 .secure 4096 0) sAsleep) ∧
    Answers (exec (.read 50 .marshal 4353 0) sAsleep) ∧
    Answers (exec (.read 50 .starter 26112 4) sTimes) ∧
    Answers (exec (.readStaged 50 .judge 61696 7) State.reset) ∧
    Answers (exec (.write 50 .marshal 8192 1 [5]) State.reset) ∧
    Answers (exec (.write 50 .marshal 4354 0 (leBytes 8 500000000)) State.reset) :=
  ⟨answers ((h.1 sAsleep _ 50 .marshal 0x1018 0 (upAt_of rfl rfl) rfl rfl).1 _ rfl ⟨rfl, rfl⟩ (by decide +kernel)
      (by decide +kernel) (Option.some_get (by decide +kernel)).symm (by decide +kernel)),
    answers ((h.1 sAsleep _ 50 .secure 0x1000 0 (upAt_of rfl rfl) rfl rfl).2 (.inl rfl)),
    answers ((h.1 sAsleep _ 50 .marshal 0x1101 0 (upAt_of rfl rfl) rfl rfl).2 (.inr (.inr (by decide +kernel)))),
    answers ((h.2 sTimes _ 50 .starter 0x6600 4 _ (acts_of (by decide) rfl rfl) rfl ⟨rfl, rfl⟩ rfl (Option.some_get
      (by decide +kernel)).symm (by decide +kernel) (by decide +kernel)).1 (by decide +kernel)),
    answers ((h.2 State.reset _ 50 .judge 0xF100 7 _ (acts_of (by decide) rfl rfl) rfl ⟨rfl, rfl⟩ rfl (Option.some_get
      (by decide +kernel)).symm (by decide +kernel) (by decide +kernel)).2.1 (by decide +kernel)),
    answers ((h.2 State.reset _ 50 .marshal 0x2000 1 _ (acts_of (by decide) rfl rfl) rfl ⟨rfl, rfl⟩ rfl (Option.some_get
      (by decide +kernel)).symm (by decide +kernel) (by decide +kernel)).2.2.1 [5] 0x20 (by decide +kernel)
      (by decide +kernel)),
    answers ((h.2 State.reset _ 50 .marshal 0x1102 0 _ (acts_of (by decide) rfl rfl) rfl ⟨rfl, rfl⟩ rfl (Option.some_get
      (by decide +kernel)).symm (by decide +kernel) (by decide +kernel)).2.2.2 (leBytes 8 500000000) (by decide +kernel)
      (by decide +kernel) (show _ by decide +kernel) (by decide +kernel))⟩

def sGroups : State := { State.reset with dict := {
    staged := [(entryKey 0x5300 1, [3]), (entryKey 0x6001 0, List.replicate 1088 0)],
    groups := [(0x41, { state := .staged, holder := some .marshal }), (0x50, { state := .pending, holder := some .marshal, ptime := { sec := 0, ns := 0 } })] } }

def sActs : State := { State.reset with
  dict := {
    staged := [(entryKey 0x2000 1, [2]), (entryKey 0xA000 2, [5])]
    groups := [0x10, 0x20, 0x14, 0x60, 0x90].map fun g => (g, { state := .staged, holder := some .marshal }) }
  ports := [(0, { link := .up })]
  rules := { rows := [(9, { valid := true, slots := 1 })] }
  fdb := { entries := [(100, 2 ^ 60 + 2 ^ 66)], tick := 7 } }

theorem meets_CommitsActAtOneInstant (h : Obligations.CommitsActAtOneInstant) :
    Answers (exec (.commit 50 .marshal 18 []) State.reset) ∧
    Answers (exec (.commit 50 .marshal 65 []) sGroups) ∧
    Answers (exec (.commit 50 .marshal 16 []) sActs) ∧
    Answers (exec (.commit 50 .marshal 32 []) sActs) ∧
    Answers (exec (.commit 50 .marshal 20 []) sActs) ∧
    Answers (exec (.commit 50 .marshal 96 []) sActs) ∧
    Answers (exec (.commit 50 .marshal 144 []) sActs) ∧
    Answers (exec (.commit 50 .marshal 65 []) sGroups) ∧
    Answers (exec (.commit 50 .marshal 65 [0, 5, 0, 0, 0, 0, 0, 0, 0, 0, 0]) sGroups) ∧
    Answers (exec (.timedCommitEffect 50 80) sGroups) ∧
    Answers (exec (.discard 50 .marshal 65 [1]) sGroups) :=
  ⟨answers ((h State.reset _ 50 .marshal 0x12 (acts_of (by decide) rfl rfl) rfl ⟨rfl, rfl⟩ rfl).1 [] (by decide +kernel)
      (by decide +kernel)),
    answers ((h sGroups _ 50 .marshal 0x41 (acts_of (by decide) rfl rfl) rfl ⟨rfl, rfl⟩ rfl).2.1 (by decide +kernel)
      (by decide +kernel) (fun x => (by decide +kernel))),
    answers (((h sActs _ 50 .marshal 0x10 (acts_of (by decide) rfl rfl) rfl ⟨rfl, rfl⟩ rfl).2.2.1 _ (by decide +kernel)
      (by decide +kernel) rfl).1 1 rfl (by decide +kernel) rfl (by decide +kernel) (show _ by decide +kernel)),
    answers (((h sActs _ 50 .marshal 0x20 (acts_of (by decide) rfl rfl) rfl ⟨rfl, rfl⟩ rfl).2.2.1 _ (by decide +kernel)
      (by decide +kernel) rfl).2.1 0 rfl),
    answers (((h sActs _ 50 .marshal 0x14 (acts_of (by decide) rfl rfl) rfl ⟨rfl, rfl⟩ rfl).2.2.1 _ (by decide +kernel)
      (by decide +kernel) rfl).2.2.1 rfl),
    answers (((h sActs _ 50 .marshal 0x60 (acts_of (by decide) rfl rfl) rfl ⟨rfl, rfl⟩ rfl).2.2.1 _ (by decide +kernel)
      (by decide +kernel) rfl).2.2.2.1 0 rfl rfl),
    answers (((h sActs _ 50 .marshal 0x90 (acts_of (by decide) rfl rfl) rfl ⟨rfl, rfl⟩ rfl).2.2.1 _ (by decide +kernel)
      (by decide +kernel) rfl).2.2.2.2 rfl),
    answers (((h sGroups _ 50 .marshal 0x41 (acts_of (by decide) rfl rfl) rfl ⟨rfl, rfl⟩ rfl).2.2.2.1 (fun _ => rfl)
      (by decide +kernel) (by decide +kernel)).1 (by decide +kernel) (by decide +kernel)),
    answers (((h sGroups _ 50 .marshal 0x41 (acts_of (by decide) rfl rfl) rfl ⟨rfl, rfl⟩ rfl).2.2.2.1 (fun _ => rfl)
      (by decide +kernel) (by decide +kernel)).2.1 [0, 5, 0, 0, 0, 0, 0, 0, 0, 0, 0] (by decide +kernel) (by decide +kernel)
      (show _ by decide +kernel) (by decide +kernel)),
    answers (((h sGroups _ 50 .marshal 0x50 (acts_of (by decide) rfl rfl) rfl ⟨rfl, rfl⟩ rfl).2.2.2.1 (fun _ => rfl)
      (by decide +kernel) (by decide +kernel)).2.2 (by decide +kernel) (by decide +kernel)),
    answers ((h sGroups _ 50 .marshal 0x41 (acts_of (by decide) rfl rfl) rfl ⟨rfl, rfl⟩ rfl).2.2.2.2 [1] (by decide +kernel)
      (by decide +kernel) (by decide +kernel))⟩

def sXfer : State := { State.reset with dict := { transfers := [{ src := .marshal, idx := 0x5001, sub := 0, total := 272, data := List.replicate 272 0, nextSeg := 1, since := 0 }, { src := .judge, idx := 0x5001, sub := 0, total := 272, since := 0 }, { src := .starter, idx := 0x4000, sub := 3, total := 0, since := 0 }] } }

def sSeg : State := { State.reset with dict := { transfers := [{ src := .marshal, idx := 0x5001, sub := 0, total := 272, since := 0 }] } }

theorem meets_TransfersCarryBlocks (h : Obligations.TransfersCarryBlocks) :
    Answers (exec (.blockOpen 50 .marshal 20481 0 (leBytes 4 272)) State.reset) ∧
    Answers (exec (.blockSeg 50 .marshal 20481 0 0 (List.replicate 272 0)) sSeg) ∧
    Answers (exec (.blockClose 50 .marshal 20481 0 (leBytes 4 (crc32c (List.replicate 272 0)))) sXfer) ∧
    Answers (exec (.blockClose 50 .starter 16384 3 (leBytes 4 0)) sXfer) ∧
    Answers (exec (.blockCancel 50 .marshal 20481 0) sXfer) ∧
    Answers (exec (.blockRead 50 .marshal 8704 0 7) State.reset) ∧
    Answers (exec (.blockReadStaged 50 .judge 20481 0 0) State.reset) ∧
    Answers (exec (.blockAbandoned 10000000000000 .judge) sXfer) ∧
    Answers (exec (.blockAbandoned 50 .judge) sXfer) :=
  ⟨answers ((h State.reset _ 50 .marshal 0x5001 0 0 (leBytes 4 272) _ (acts_of (by decide) rfl rfl) rfl ⟨rfl, rfl⟩ rfl
      (Option.some_get (by decide +kernel)).symm (by decide +kernel) (by decide +kernel)).1 (by decide +kernel)),
    answers ((h sSeg _ 50 .marshal 0x5001 0 0 (List.replicate 272 0) _ (acts_of (by decide) rfl rfl) rfl ⟨rfl, rfl⟩ rfl
      (Option.some_get (by decide +kernel)).symm (by decide +kernel) (by decide +kernel)).2.1 (by decide +kernel)),
    answers ((h sXfer _ 50 .marshal 0x5001 0 0 (leBytes 4 (crc32c (List.replicate 272 0))) _ (acts_of (by decide) rfl rfl) rfl
      ⟨rfl, rfl⟩ rfl (Option.some_get (by decide +kernel)).symm (by decide +kernel) (by decide +kernel)).2.2.1 _ 0x40 rfl
      (by decide +kernel) (by decide +kernel) (show _ by decide +kernel)),
    answers ((h sXfer _ 50 .starter 0x4000 3 0 (leBytes 4 0) _ (acts_of (by decide) rfl rfl) rfl ⟨rfl, rfl⟩ rfl (Option.some_get
      (by decide +kernel)).symm (by decide +kernel) (by decide +kernel)).2.2.2.1 _ rfl (by decide +kernel) (by decide +kernel)
      (show _ by decide +kernel) (by decide +kernel)),
    answers ((h sXfer _ 50 .marshal 0x5001 0 0 [] _ (acts_of (by decide) rfl rfl) rfl ⟨rfl, rfl⟩ rfl (Option.some_get
      (by decide +kernel)).symm (by decide +kernel) (by decide +kernel)).2.2.2.2.1 (by decide +kernel)),
    answers ((h State.reset _ 50 .marshal 0x2200 0 7 [] _ (acts_of (by decide) rfl rfl) rfl ⟨rfl, rfl⟩ rfl (Option.some_get
      (by decide +kernel)).symm (by decide +kernel) (by decide +kernel)).2.2.2.2.2.1 (by decide +kernel)),
    answers ((h State.reset _ 50 .judge 0x5001 0 0 [] _ (acts_of (by decide) rfl rfl) rfl ⟨rfl, rfl⟩ rfl (Option.some_get
      (by decide +kernel)).symm (by decide +kernel) (by decide +kernel)).2.2.2.2.2.2.1 (by decide +kernel)),
    answers (((h sXfer _ 10000000000000 .marshal 0x5001 0 0 [] _ (acts_of (by decide) rfl rfl) rfl ⟨rfl, rfl⟩ rfl
      (Option.some_get (by decide +kernel)).symm (by decide +kernel) (by decide +kernel)).2.2.2.2.2.2.2 .judge _ rfl).1
      (by decide +kernel)),
    answers (((h sXfer _ 50 .marshal 0x5001 0 0 [] _ (acts_of (by decide) rfl rfl) rfl ⟨rfl, rfl⟩ rfl (Option.some_get
      (by decide +kernel)).symm (by decide +kernel) (by decide +kernel)).2.2.2.2.2.2.2 .judge _ rfl).2 (by decide +kernel))⟩

def wRead : Waiting := { src := .judge, cmd := { op := .read, idx := 0xB200, sub := 2 }, at_ := 0, limit := 1000000 }

def wLate : Waiting := { src := .starter, cmd := { op := .read, idx := 0x3500, sub := 2 }, at_ := 0, limit := 0 }

def sServed : State := { State.reset with boot.state := .complete, proc.groups := [(0, { state := .running })], dict := { served := [wRead, wLate] } }

theorem meets_MarshalServesOrTimesOut (h : Obligations.MarshalServesOrTimesOut) :
    Answers (exec (.read 50 .marshal 13568 2) sServed) ∧
    Answers (exec (.marshalAnswer 50 .judge 144703489) sServed) ∧
    Answers (exec (.marshalAnswer 50 .judge 0) sServed) ∧
    Answers (exec (.marshalAnswer 50 .starter 0) sServed) ∧
    Answers (exec (.marshalServiceTimeout 50 .starter) sServed) :=
  ⟨answers ((h sServed _ 50 .marshal (acts_of (by decide) rfl rfl) rfl ⟨rfl, rfl⟩ rfl).1 (.read 50 .marshal 0x3500 2)
      { op := .read, idx := 0x3500, sub := 2 } rfl (by decide +kernel) (by decide +kernel) (by decide +kernel)),
    answers ((h sServed _ 50 .judge (acts_of (by decide) rfl rfl) rfl ⟨rfl, rfl⟩ rfl).2.1 wRead 0x08A00001 (by decide +kernel)
      (by decide +kernel) (by decide +kernel) (by decide +kernel) (show _ by decide +kernel) (by decide +kernel)),
    answers ((h sServed _ 50 .judge (acts_of (by decide) rfl rfl) rfl ⟨rfl, rfl⟩ rfl).2.2.1 wRead _ (by decide +kernel)
      (by decide +kernel) (by decide +kernel) (by decide +kernel) (Option.some_get (by decide +kernel)).symm
      (show _ by decide +kernel) (by decide +kernel)),
    answers ((h sServed _ 50 .starter (acts_of (by decide) rfl rfl) rfl ⟨rfl, rfl⟩ rfl).2.2.2.1 wLate 0 (by decide +kernel)
      (by decide +kernel)),
    answers ((h sServed _ 50 .starter (acts_of (by decide) rfl rfl) rfl ⟨rfl, rfl⟩ rfl).2.2.2.2 wLate (by decide +kernel)
      (by decide +kernel) (by decide +kernel))⟩

def sRun : State := { State.reset with boot.state := .complete, proc.groups := [(0, { state := .running })] }

def sCo : State := { sRun with nv.ownerSet := true }

def sRecovery : State := { State.reset with boot.state := .recovery, boot.reason := 0x0010 }

def sAnchorCap : State := { State.reset with dict.vals := [(entryKey 0xB000 1, [3])] }

theorem meets_EntryWritesTakeTheirEffect (h : Obligations.EntryWritesTakeTheirEffect) :
    Answers (exec (.groupStop 50 .marshal 0) sRun) ∧
    Answers (exec (.groupStart 50 .marshal 1) sRun) ∧
    Answers (exec (.groupRestart 50 .marshal 2) sRun) ∧
    Answers (exec (.deviceStateRequest 50 .marshal 2) sRun) ∧
    Answers (exec (.warmResetRequest 50 .marshal) sRun) ∧
    Answers (exec (.resumeBoot 50 .marshal) sRecovery) ∧
    Answers (exec (.securityVersionAdvance 50 .marshal false 5) sRun) ∧
    Answers (exec (.ownerKeyProgram 50 .marshal (List.replicate 32 1)) sRun) ∧
    Answers (exec (.ownerCoSignature 50 .marshal) sCo) ∧
    Answers (exec (.decommission 50 .marshal) sRun) ∧
    Answers (exec (.attestationRequest 50 .marshal (List.replicate 32 1)) sRun) ∧
    Answers (exec (.takeAnchorRole 50 .marshal) sAnchorCap) ∧
    Answers (exec (.releaseNode 50 .marshal 5) sAnchorCap) ∧
    Answers (exec (.reEnrolNode 50 .marshal 5) sAnchorCap) :=
  ⟨answers ((h sRun _ 50 .marshal (acts_of (by decide) rfl rfl) rfl ⟨rfl, rfl⟩ rfl).1 0 (by decide +kernel)),
    answers ((h sRun _ 50 .marshal (acts_of (by decide) rfl rfl) rfl ⟨rfl, rfl⟩ rfl).2.1 1 (by decide +kernel)),
    answers ((h sRun _ 50 .marshal (acts_of (by decide) rfl rfl) rfl ⟨rfl, rfl⟩ rfl).2.2.1 2 (by decide +kernel)),
    answers ((h sRun _ 50 .marshal (acts_of (by decide) rfl rfl) rfl ⟨rfl, rfl⟩ rfl).2.2.2.1 2 _ rfl (by decide +kernel)),
    answers ((h sRun _ 50 .marshal (acts_of (by decide) rfl rfl) rfl ⟨rfl, rfl⟩ rfl).2.2.2.2.1 (by decide +kernel)),
    answers ((h sRecovery _ 50 .marshal (acts_of (by decide) rfl rfl) rfl ⟨rfl, rfl⟩ rfl).2.2.2.2.2.1 (by decide +kernel)),
    answers ((h sRun _ 50 .marshal (acts_of (by decide) rfl rfl) rfl ⟨rfl, rfl⟩ rfl).2.2.2.2.2.2.1 false 5 (by decide +kernel)),
    answers ((h sRun _ 50 .marshal (acts_of (by decide) rfl rfl) rfl ⟨rfl, rfl⟩ rfl).2.2.2.2.2.2.2.1 (List.replicate 32 1)
      (by decide +kernel)),
    answers ((h sCo _ 50 .marshal (acts_of (by decide) rfl rfl) rfl ⟨rfl, rfl⟩ rfl).2.2.2.2.2.2.2.2.1 (by decide +kernel)),
    answers ((h sRun _ 50 .marshal (acts_of (by decide) rfl rfl) rfl ⟨rfl, rfl⟩ rfl).2.2.2.2.2.2.2.2.2.1 (by decide +kernel)),
    answers ((h sRun _ 50 .marshal (acts_of (by decide) rfl rfl) rfl ⟨rfl, rfl⟩ rfl).2.2.2.2.2.2.2.2.2.2.1 (List.replicate 32 1)
      (by decide +kernel) (by decide +kernel)),
    answers ((h sAnchorCap _ 50 .marshal (acts_of (by decide) rfl rfl) rfl ⟨rfl, rfl⟩ rfl).2.2.2.2.2.2.2.2.2.2.2.1
      (by decide +kernel)),
    answers ((h sAnchorCap _ 50 .marshal (acts_of (by decide) rfl rfl) rfl ⟨rfl, rfl⟩ rfl).2.2.2.2.2.2.2.2.2.2.2.2.1 5
      (by decide +kernel)),
    answers ((h sAnchorCap _ 50 .marshal (acts_of (by decide) rfl rfl) rfl ⟨rfl, rfl⟩ rfl).2.2.2.2.2.2.2.2.2.2.2.2.2 5
      (by decide +kernel))⟩

end Sys2Proof.Tests.J

namespace Sys2Proof.Tests.K

def pairVals : List (Nat × List Byte) := [(entryKey 0xA000 1, [1]), (entryKey 0xA000 3, [3]), (entryKey 0xA000 7, [1]), (entryKey 0xB000 1, [1])]

def rec0 : MirrorRec := { seq := 0, ty := 3, body := [0, 0, 0, 0, 0, 0, 0, 0] }

def sPair : State := { State.reset with
    proc.groups := [(0, { state := .running })], ao.node := 5, dict.vals := pairVals, dom.anchor := 0, dom.anchorHeard := some 0
    red.generators := [(7, 5)]
    flow.backmap := [(9, 0x80000001)]
    pair := { role := .active, epoch := 4, laneUp := 3, replay := [rec0], genDirty := [7], leaseEnd := some 500000000, hbSent := [(3, 0)], confirmRx := some 490000000 } }

def sStandby : State := { sPair with pair := { role := .standby, epoch := 4, laneUp := 1, sync := .inSync } }

def sDetached : State := { sPair with pair := { role := .detached, epoch := 4, laneUp := 1 } }

def frameOf (epoch : Byte) : List Byte := List.replicate 12 0 ++ [0x88, 0xB6, 1, 1, 6, 5, 0, 0, 0, epoch, 0, 0, 0, 0, 0, 0, 0, 0, 0, 0, 0, 0, 0, 1, 7, 0, 0, 4, 0, 0, 0, 0]

def sNext : State := { sStandby with pair.expected := 1, pair.follows := true, pow.unlocked := [] }

def frame1 : List Byte := (frameOf 4).set 25 1

theorem meets_SallarLanesCarryTheStream (h : Obligations.SallarLanesCarryTheStream) :
    Answers (exec (.sallarHeartbeatSend 500000000 1) sPair) ∧
    Answers (exec (.sallarLaneTimeout 500000000 1) sPair) ∧
    Answers (exec (.sallarFrameRx 50 1 (frameOf 4)) sDetached) ∧
    Answers (exec (.sallarFrameRx 50 1 (frameOf 3)) sStandby) ∧
    Answers (exec (.sallarFrameRx 50 1 (frameOf 4)) sDetached) ∧
    Answers (exec (.sallarFrameRx 50 1 frame1) sNext) ∧
    Answers (exec (.sallarResend 500000000) sPair) ∧
    Answers (exec (.generatorMirrorBatch 500000000000) sPair) ∧
    Answers (exec (.digestEmit 500000000) sPair) :=
  ⟨answers ((h sPair _ 500000000 1 (acts_of (by decide) rfl rfl) rfl).1 (by decide +kernel)
      (fun a x => absurd (show none = some a from x) (by simp))),
    answers ((h sPair _ 500000000 1 (acts_of (by decide) rfl rfl) rfl).2.1 (by decide +kernel)
      (fun a x => absurd (show none = some a from x) (by simp))),
    answers (((h sDetached _ 50 1 (acts_of (by decide) rfl rfl) rfl).2.2.1 (frameOf 4) (by decide +kernel)
      (by decide +kernel)).1 (by decide +kernel)),
    answers (((h sStandby _ 50 1 (acts_of (by decide) rfl rfl) rfl).2.2.1 (frameOf 3) (by decide +kernel)
      (by decide +kernel)).2.1 (by decide +kernel)),
    answers (((h sDetached _ 50 1 (acts_of (by decide) rfl rfl) rfl).2.2.1 (frameOf 4) (by decide +kernel)
      (by decide +kernel)).2.2.1 (by decide +kernel) (.inl rfl)),
    answers (((h sNext _ 50 1 (acts_of (by decide) rfl rfl) rfl).2.2.1 frame1 (by decide +kernel) (by decide +kernel)).2.2.2
      { seq := 1, ty := 7, body := [0, 0, 0, 0] } _ (by decide +kernel) (by decide +kernel) (show _ by decide +kernel)
      (by decide +kernel) (by decide +kernel) (by decide +kernel) (by decide +kernel) (show _ by decide +kernel)
      (by decide +kernel) (by decide +kernel) (Option.some_get (by decide +kernel)).symm),
    answers ((h sPair _ 500000000 1 (acts_of (by decide) rfl rfl) rfl).2.2.2.1 (by decide +kernel) (.inl rfl)
      (by decide +kernel) (fun x => absurd x (by decide +kernel)) (by decide +kernel)),
    answers ((h sPair _ 500000000000 1 (acts_of (by decide) rfl rfl) rfl).2.2.2.2.1 (by decide +kernel) (by decide +kernel)),
    answers ((h sPair _ 500000000 1 (acts_of (by decide) rfl rfl) rfl).2.2.2.2.2 9 (by decide +kernel) (by decide +kernel))⟩

def sHold : State := { sPair with pair.role := .held, pair.confirmRx := none, pair.leaseEnd := none }

def sFenced : State := { sPair with pair.role := .fenced, pair.drainEnd := some 40 }

def sClear : State := { sPair with pair := { role := .standby, sync := .clearing } }

def sBulk : State := { sPair with pair := { role := .standby, sync := .bulk }, flow.free := { runs := [(0, 67108864)] } }

theorem meets_LeasesAndRolesMoveByTheAnchor (h : Obligations.LeasesAndRolesMoveByTheAnchor) :
    Answers (exec (.heartbeatSend 500000000 1) sPair) ∧
    Answers (exec (.grant 50 0 3 3) sPair) ∧
    Answers (exec (.grant 50 0 4 3) sPair) ∧
    Answers (exec (.grant 50 0 4 3) sHold) ∧
    Answers (exec (.grant 500000000 0 4 3) sPair) ∧
    Answers (exec (.leaseExpiry 500000000) sPair) ∧
    Answers (exec (.leaseExpiry 600000000) sPair) ∧
    Answers (exec (.holdConfirmTimeout 50) sHold) ∧
    Answers (exec (.anchorLost 500000000) sPair) ∧
    Answers (exec (.fenceDrainEnd 50) sFenced) ∧
    Answers (exec (.promote 50 0 5) sStandby) ∧
    Answers (exec (.promote 50 0 5) sClear) ∧
    Answers (exec (.demote 50 0 4) sPair) ∧
    Answers (exec (.assign 50 0 2 4) sPair) ∧
    Answers (exec (.assign 50 0 0 5) sPair) ∧
    Answers (exec (.resyncClearDone 50) sClear) ∧
    Answers (exec (.bulkComplete 50) sBulk) :=
  ⟨answers ((h.1 sPair _ 500000000 (acts_of (by decide) rfl rfl) rfl).1 1 (by decide +kernel) (by decide +kernel)
      (by decide +kernel) (by decide +kernel) (fun a x => absurd (show none = some a from x) (by simp))),
    answers (((h.1 sPair _ 50 (acts_of (by decide) rfl rfl) rfl).2.1 0 3 3 _ rfl (by decide +kernel) (by decide +kernel) (.inl
      rfl)).1 0 (by decide +kernel) (by decide +kernel) (show _ by decide +kernel)),
    answers (((h.1 sPair _ 50 (acts_of (by decide) rfl rfl) rfl).2.1 0 4 3 _ rfl (by decide +kernel) (by decide +kernel) (.inl
      rfl)).2.1 0 (by decide +kernel) (by decide +kernel) (show _ by decide +kernel)),
    answers (((h.1 sHold _ 50 (acts_of (by decide) rfl rfl) rfl).2.1 0 4 3 _ rfl (by decide +kernel) (by decide +kernel) (.inr
      rfl)).2.1 0 (by decide +kernel) (by decide +kernel) (show _ by decide +kernel)),
    answers (((h.1 sPair _ 500000000 (acts_of (by decide) rfl rfl) rfl).2.1 0 4 3 _ rfl (by decide +kernel) (by decide +kernel)
      (.inl rfl)).2.2 (fun a x => (Option.some.inj (x.symm.trans (show _ = some 0 by decide +kernel))) ▸ (by decide +kernel))),
    answers (((h.1 sPair _ 500000000 (acts_of (by decide) rfl rfl) rfl).2.2.1 500000000 rfl (by decide +kernel)
      (by decide +kernel) rfl).1 490000000 (by decide +kernel) rfl (by decide +kernel)),
    answers (((h.1 sPair _ 600000000 (acts_of (by decide) rfl rfl) rfl).2.2.1 500000000 rfl (by decide +kernel)
      (by decide +kernel) rfl).2 (.inr fun a x => Option.some.inj x ▸ (by decide +kernel))),
    answers ((h.1 sHold _ 50 (acts_of (by decide) rfl rfl) rfl).2.2.2.1 (by decide +kernel) rfl
      (fun a x => absurd (show none = some a from x) (by simp))),
    answers ((h.1 sPair _ 500000000 (acts_of (by decide) rfl rfl) rfl).2.2.2.2.1 0 rfl (by decide +kernel) (by decide +kernel)
      rfl),
    answers ((h.1 sFenced _ 50 (acts_of (by decide) rfl rfl) rfl).2.2.2.2.2 40 rfl (by decide +kernel) rfl),
    answers ((h.2 sStandby _ 50 0 5 (acts_of (by decide) rfl rfl) rfl).1 (by decide +kernel) (by decide +kernel) rfl
      (by decide +kernel) rfl (by decide +kernel) rfl),
    answers ((h.2 sClear _ 50 0 5 (acts_of (by decide) rfl rfl) rfl).2.1 (by decide +kernel) (by decide +kernel) rfl
      (by decide +kernel) (.inl (by decide +kernel))),
    answers ((h.2 sPair _ 50 0 4 (acts_of (by decide) rfl rfl) rfl).2.2.1 _ rfl (by decide +kernel) (by decide +kernel) (.inl
      rfl) (by decide +kernel)),
    answers ((h.2 sPair _ 50 0 4 (acts_of (by decide) rfl rfl) rfl).2.2.2.1 2 (by decide +kernel) (by decide +kernel)
      (by decide +kernel) (.inr rfl)),
    answers ((h.2 sPair _ 50 0 5 (acts_of (by decide) rfl rfl) rfl).2.2.2.1 0 (by decide +kernel) (by decide +kernel)
      (by decide +kernel) (.inl rfl)),
    answers ((h.2 sClear _ 50 0 5 (acts_of (by decide) rfl rfl) rfl).2.2.2.2.1 (by decide +kernel) rfl rfl rfl),
    answers ((h.2 sBulk _ 50 0 5 (acts_of (by decide) rfl rfl) rfl).2.2.2.2.2 (by decide +kernel) rfl rfl (by decide +kernel)
      rfl (by decide +kernel) (by decide +kernel))⟩

end Sys2Proof.Tests.K

namespace Sys2Proof.Tests.L

def rosterAB : List Byte := List.replicate 64 5 ++ List.replicate 32 9 ++ [1, 2, 1, 0] ++ List.replicate 60 0 ++ [1, 1, 1, 0] ++ List.replicate 3932 0

def rosterVals : List (Nat × List Byte) := [(entryKey 0xB000 1, [2]), (entryKey 0xB100 0, rosterAB)]

def sAnchor : State := { State.reset with
    proc.groups := [(0, { state := .running })]
    dict.vals := rosterVals
    dom := { anchor := 0, beaconing := true, anchorEpoch := 7, highest := 7, roster := [(1, { presence := 2, role := 1, epoch := 4, leaseEnd := some 100, at_ := 0 }), (2, { presence := 2, role := 2, sync := 3, epoch := 4, at_ := 200000000 })] } }

def sAlone : State := { sAnchor with dom.roster := [(1, { presence := 2, role := 1, epoch := 4, leaseEnd := some 100, at_ := 0 })] }

def sMissing : State := { sAnchor with dom.roster := [(1, { presence := 3, role := 1, epoch := 4 })] }

def sWired : State := { sAnchor with wires := [(0, { waiting := [{ lease := false, frame := [1] }], busyUntil := 100 })] }

def sFollower : State := { State.reset with proc.groups := [(0, { state := .running })], ao.node := 5, dict.vals := [(entryKey 0xB000 1, [1])], dom := { anchor := 62, anchorEpoch := 3 } }

theorem meets_TheAnchorKeepsLeases (h : Obligations.TheAnchorKeepsLeases) :
    Answers (exec (.heartbeatRx 50 1 1 { role := 1, sync := 0, lanes := 1, flags := 8, epoch := 4, count := 9 }) sAnchor) ∧
    Answers (exec (.heartbeatRx 50 1 1 { role := 1, sync := 0, lanes := 1, flags := 8, epoch := 4, count := 9 }) sMissing) ∧
    Answers (exec (.anchorLeaseExpiry 200000000 1) sAlone) ∧
    Answers (exec (.anchorLeaseExpiry 200000000 1) sAnchor) ∧
    Answers (exec (.beaconSend 50) sAnchor) ∧
    Answers (exec (.beaconSend 50) sWired) ∧
    Answers (exec (.beaconRx 50 { epoch := 9, node := 0, flags := 0, rosterCommits := 0, seconds := 1, nanos := 2 }) sFollower)
      ∧
    Answers (exec (.beaconRx 50 { epoch := 8, node := 0, flags := 0, rosterCommits := 0, seconds := 1, nanos := 2 }) sAnchor) ∧
    Answers (exec (.withdrawRx 50 1) sAnchor) :=
  ⟨answers ((h sAnchor _ 50 (acts_of (by decide) rfl rfl) rfl (by decide +kernel)).1 1 1
      { role := 1, sync := 0, lanes := 1, flags := 8, epoch := 4, count := 9 } (by decide +kernel) (by decide +kernel)
      (by decide +kernel) (show _ by decide +kernel)),
    answers ((h sMissing _ 50 (acts_of (by decide) rfl rfl) rfl (by decide +kernel)).2.1 1 1
      { role := 1, sync := 0, lanes := 1, flags := 8, epoch := 4, count := 9 } (by decide +kernel) (by decide +kernel)
      (by decide +kernel) (show _ by decide +kernel)),
    answers (((h sAlone _ 200000000 (acts_of (by decide) rfl rfl) rfl (by decide +kernel)).2.2.1 1 100 2 (by decide +kernel)
      (by decide +kernel) rfl (by decide +kernel) (show _ by decide +kernel) (by decide +kernel) (by decide +kernel)).1
      (by decide +kernel)),
    answers (((h sAnchor _ 200000000 (acts_of (by decide) rfl rfl) rfl (by decide +kernel)).2.2.1 1 100 2 (by decide +kernel)
      (by decide +kernel) rfl (by decide +kernel) (show _ by decide +kernel) (by decide +kernel) (by decide +kernel)).2 _
      (by decide +kernel) (by decide +kernel) rfl),
    answers ((h sAnchor _ 50 (acts_of (by decide) rfl rfl) rfl (by decide +kernel)).2.2.2.1 _ (by decide +kernel)
      (fun a x => absurd (show none = some a from x) (by simp)) rfl),
    answers ((h sWired _ 50 (acts_of (by decide) rfl rfl) rfl (by decide +kernel)).2.2.2.1 _ (by decide +kernel)
      (fun a x => absurd (show none = some a from x) (by simp)) rfl),
    answers (((h sFollower _ 50 (acts_of (by decide) rfl rfl) rfl (by decide +kernel)).2.2.2.2.1
      { epoch := 9, node := 0, flags := 0, rosterCommits := 0, seconds := 1, nanos := 2 } (by decide +kernel)).1 _
      { epoch := 9, node := 0, at_ := 50 } (by decide +kernel) rfl (by decide +kernel)),
    answers (((h sAnchor _ 50 (acts_of (by decide) rfl rfl) rfl (by decide +kernel)).2.2.2.2.1
      { epoch := 8, node := 0, flags := 0, rosterCommits := 0, seconds := 1, nanos := 2 } (by decide +kernel)).2
      (by decide +kernel)),
    answers ((h sAnchor _ 50 (acts_of (by decide) rfl rfl) rfl (by decide +kernel)).2.2.2.2.2 1 _ rfl (by decide +kernel)
      (by decide +kernel) (by decide +kernel))⟩

def sNew : State := { State.reset with proc.groups := [(0, { state := .running })], ao.node := 0xFE, dict.vals := [(entryKey 0xB000 1, [1])], dom := { anchor := 0 } }

def sLoner : State := { sNew with dict.vals := [] }

def sMember : State := { sFollower with dom := { anchor := 0, withdrawDue := some 40 } }

def sStrange : State := { sAnchor with dom.strangers := [(3, { id := [], port := 0, first := 0, last := 0, at_ := 0 })] }

theorem meets_DevicesEnrolAndLeave (h : Obligations.DevicesEnrolAndLeave) :
    Answers (exec (.enrol 50 0 ownHash 7 true) sNew) ∧
    Answers (exec (.enrol 50 0 (0 :: ownHash) 7 true) sNew) ∧
    Answers (exec (.enrol 50 0 ownHash 7 true) sAnchor) ∧
    Answers (exec (.enrol 50 3 ownHash 7 true) sNew) ∧
    Answers (exec (.enrol 50 0 ownHash 7 true) sLoner) ∧
    Answers (exec (.enrolAck 50 2 1 0) sAnchor) ∧
    Answers (exec (.enrolAck 50 1 1 0) sAnchor) ∧
    Answers (exec (.enrolAck 50 1 1 1) sAnchor) ∧
    Answers (exec (.announceSend 50) sNew) ∧
    Answers (exec (.announceRx 50 1 { bytes := List.replicate 48 9, role := 1 }) sAnchor) ∧
    Answers (exec (.announceRx 50 1 { bytes := List.replicate 48 8, role := 1 }) sAnchor) ∧
    Answers (exec (.rosterLostTimeout 1000000000000 1) sAnchor) ∧
    Answers (exec (.strangerTimeout 1000000000000 3) sStrange) ∧
    Answers (exec (.withdrawResend 50) sMember) ∧
    Answers (exec (.releaseRx 50 0 1) sMember) :=
  ⟨answers (((h sNew _ 50 (acts_of (by decide) rfl rfl) rfl).1 0 7 ownHash true _ rfl (by decide +kernel)).1 (by decide +kernel)
      rfl (by decide +kernel) (by decide +kernel) (show _ by decide +kernel)),
    answers (((h sNew _ 50 (acts_of (by decide) rfl rfl) rfl).1 0 7 (0 :: ownHash) true _ rfl (by decide +kernel)).2.1 (by simp)
      (by decide +kernel)),
    answers (((h sAnchor _ 50 (acts_of (by decide) rfl rfl) rfl).1 0 7 ownHash true _ rfl (by decide +kernel)).2.2.1 rfl
      (by decide +kernel) (by decide +kernel)),
    answers (((h sNew _ 50 (acts_of (by decide) rfl rfl) rfl).1 3 7 ownHash true _ rfl (by decide +kernel)).2.2.2.1 rfl
      (by decide +kernel) (.inl (by decide +kernel))),
    answers (((h sLoner _ 50 (acts_of (by decide) rfl rfl) rfl).1 0 7 ownHash true _ rfl (by decide +kernel)).2.2.2.2
      (by decide +kernel)),
    answers (((h sAnchor _ 50 (acts_of (by decide) rfl rfl) rfl).2.1 2 1 _ rfl (by decide +kernel) (by decide +kernel)
      (by decide +kernel) (by decide +kernel)).1 (show _ by decide +kernel)),
    answers (((h sAnchor _ 50 (acts_of (by decide) rfl rfl) rfl).2.1 1 1 _ rfl (by decide +kernel) (by decide +kernel)
      (by decide +kernel) (by decide +kernel)).2.1 rfl),
    answers (((h sAnchor _ 50 (acts_of (by decide) rfl rfl) rfl).2.1 1 1 _ rfl (by decide +kernel) (by decide +kernel)
      (by decide +kernel) (by decide +kernel)).2.2),
    answers ((h sNew _ 50 (acts_of (by decide) rfl rfl) rfl).2.2.1 (by decide +kernel) (by decide +kernel) (by decide +kernel)
      (fun a x => absurd (show none = some a from x) (by simp))),
    answers (((h sAnchor _ 50 (acts_of (by decide) rfl rfl) rfl).2.2.2.1 1 { bytes := List.replicate 48 9, role := 1 } _ rfl
      (by decide +kernel) (by decide +kernel)).1 1 (by decide +kernel) (by decide +kernel)),
    answers (((h sAnchor _ 50 (acts_of (by decide) rfl rfl) rfl).2.2.2.1 1 { bytes := List.replicate 48 8, role := 1 } _ rfl
      (by decide +kernel) (by decide +kernel)).2 0 (by decide +kernel) (by decide +kernel) (show _ by decide +kernel)),
    answers ((h sAnchor _ 1000000000000 (acts_of (by decide) rfl rfl) rfl).2.2.2.2.1 1 (by decide +kernel) (by decide +kernel)
      (by decide +kernel)),
    answers ((h sStrange _ 1000000000000 (acts_of (by decide) rfl rfl) rfl).2.2.2.2.2.1 3 _ rfl (by decide +kernel)),
    answers ((h sMember _ 50 (acts_of (by decide) rfl rfl) rfl).2.2.2.2.2.2.1 40 rfl (by decide +kernel) (by decide +kernel)
      (by decide +kernel) (by decide +kernel)),
    answers ((h sMember _ 50 (acts_of (by decide) rfl rfl) rfl).2.2.2.2.2.2.2 0 1 _ rfl (by decide +kernel) (by decide +kernel)
      (by decide +kernel))⟩

def sEvents : State := { sMember with dom := { anchor := 0, partials := [{ port := 0, msg := 1, src := 4, seq := 5, length := 2000, frags := 2, since := 0 }], forwards := [(7, { seq := 3, body := [1], due := 20 })] } }

def sLog : State := { sAnchor with host := { proto := .pcie, busMaster := true, rings := [(34, { baseLo := 1, state := .running })] } }

def sDual : State := { sMember with dict.vals := [(entryKey 0xB000 1, [1]), (entryKey 0xB000 3, [1])] }

def pouvex (dst ttl : Byte) : List Byte := List.replicate 12 0 ++ [0x88, 0xB5, 1, 0x16, dst, 0, 0, ttl, 0, 9, 0, 4, 0, 1] ++ List.replicate 34 0

theorem meets_PouvexMessagesAreTakenIn (h : Obligations.PouvexMessagesAreTakenIn) :
    Answers (exec (.pouvexFrameRx 50 1 (pouvex 5 1)) sEvents) ∧
    Answers (exec (.pouvexFrameRx 50 1 (pouvex 6 1)) sEvents) ∧
    Answers (exec (.pouvexFrameRx 50 1 (pouvex 6 2)) sDual) ∧
    Answers (exec (.pouvexReassemblyTimeout 2000000000 4 5) sEvents) ∧
    Answers (exec (.eventRx 50 1 (List.replicate 32 1)) sLog) ∧
    Answers (exec (.eventAck 50 7 3) sEvents) ∧
    Answers (exec (.eventResend 50 7) sEvents) :=
  ⟨answers (((h sEvents _ 50 (acts_of (by decide) rfl rfl) rfl).1 1 (pouvex 5 1) (by decide +kernel) (by decide +kernel)
      (by decide +kernel)).1 (by decide +kernel) (show _ by decide +kernel) (by decide +kernel) (by decide +kernel)),
    answers (((h sEvents _ 50 (acts_of (by decide) rfl rfl) rfl).1 1 (pouvex 6 1) (by decide +kernel) (by decide +kernel)
      (by decide +kernel)).2.1 (.inl (by decide +kernel))),
    answers (((h sDual _ 50 (acts_of (by decide) rfl rfl) rfl).1 1 (pouvex 6 2) (by decide +kernel) (by decide +kernel)
      (by decide +kernel)).2.2 (by decide +kernel) (show _ by decide +kernel) (by decide +kernel) (by decide +kernel)),
    answers ((h sEvents _ 2000000000 (acts_of (by decide) rfl rfl) rfl).2.1 4 5 _ rfl (by decide +kernel)),
    answers ((h sLog _ 50 (acts_of (by decide) rfl rfl) rfl).2.2.1 1 (List.replicate 32 1) _ rfl (by decide +kernel)
      (by decide +kernel) (by decide +kernel)),
    answers ((h sEvents _ 50 (acts_of (by decide) rfl rfl) rfl).2.2.2.1 7 { seq := 3, body := [1], due := 20 } _ ⟨rfl, ⟨rfl,
      rfl⟩, rfl, rfl, by decide, rfl, rfl⟩ (by decide +kernel) rfl rfl rfl),
    answers ((h sEvents _ 50 (acts_of (by decide) rfl rfl) rfl).2.2.2.2 7 { seq := 3, body := [1], due := 20 }
      (by decide +kernel) (by decide +kernel) rfl (by decide +kernel) rfl)⟩

def wRelay : Waiting := { src := .marshal, cmd := { op := .blockClose, idx := 0xB200, sub := 2, data := [1, 2, 3, 4, 5, 6, 7, 8] }, at_ := 0, limit := 1000000 }

def sRelay : State := { sMember with
    proc.groups := [(0, { state := .running })], dict.served := [wRelay], boot.state := .complete
    dom := { anchor := 0, kept := [{ src := 0, seq := 3, body := [1] }], relayRequest := [1, 2, 3, 4, 5, 6, 7, 8], relay := [{ node := 4, seq := 1, resends := 0, due := 20 }] } }

def sRelayAll : State := { sRelay with dom.relayAll := true, dom.relay := [{ node := 3, seq := 1, resends := 0, due := 20 }, { node := 4, seq := 1, resends := 0, due := 20 }] }

def sFull : State := { sRelay with dom.requests := List.replicate 16 { src := 0, seq := 8, body := [] } }

def sServe : State := { sRelay with dict.served := [], dom := { anchor := 0 } }

theorem meets_RequestsAndRelaysCrossTheDomain (h : Obligations.RequestsAndRelaysCrossTheDomain) :
    Answers (exec (.dictReq 50 0 3 []) sRelay) ∧
    Answers (exec (.dictReq 50 0 4 []) sFull) ∧
    Answers (exec (.dictReq 50 0 4 [1, 0, 17, 2, 0, 0, 0, 0, 0, 0, 0, 0]) sServe) ∧
    Answers (exec (.dictReq 50 0 4 [1, 0, 17, 2, 0, 0, 0, 0, 0, 0, 0, 0]) sServe) ∧
    Answers (exec (.dictRsp 50 4 [1, 2, 3, 4, 5, 6, 7, 8]) sRelayAll) ∧
    Answers (exec (.dictRsp 50 4 [1, 2, 3, 4, 5, 6, 7, 8]) sRelay) ∧
    Answers (exec (.relayResend 50 4) sRelay) :=
  ⟨answers (((h sRelay _ 50 (acts_of (by decide) rfl rfl) rfl).1 0 3 [] _ rfl (by decide +kernel)).1
      { src := 0, seq := 3, body := [1] } (by decide +kernel)),
    answers (((h sFull _ 50 (acts_of (by decide) rfl rfl) rfl).1 0 4 [] _ rfl (by decide +kernel)).2.1 (by decide +kernel)
      (by decide +kernel) (by decide +kernel)),
    answers (((h sServe _ 50 (acts_of (by decide) rfl rfl) rfl).1 0 4 [1, 0, 0x11, 0x02, 0, 0, 0, 0, 0, 0, 0, 0] _ rfl
      (by decide +kernel)).2.2.1 _ _ _ (by decide +kernel) rfl rfl rfl rfl (by decide +kernel) (by decide +kernel)
      (show _ by decide +kernel) rfl rfl (by decide +kernel) (by decide +kernel)),
    answers (((h sServe _ 50 (acts_of (by decide) rfl rfl) rfl).1 0 4 [1, 0, 0x11, 0x02, 0, 0, 0, 0, 0, 0, 0, 0] _ rfl
      (by decide +kernel)).2.2.2 _ _ _ _ (by decide +kernel) rfl rfl rfl rfl rfl (by decide +kernel) (Option.some_get
      (by decide +kernel)).symm (by decide +kernel) (show _ by decide +kernel) (by decide +kernel) rfl),
    answers (((h sRelayAll _ 50 (acts_of (by decide) rfl rfl) rfl).2.1 4 [1, 2, 3, 4, 5, 6, 7, 8] _ _ rfl rfl
      (by decide +kernel) (by decide +kernel)).1 rfl (by decide +kernel)),
    answers (((h sRelay _ 50 (acts_of (by decide) rfl rfl) rfl).2.1 4 [1, 2, 3, 4, 5, 6, 7, 8] _ _ rfl rfl (by decide +kernel)
      (by decide +kernel)).2 _ rfl rfl (by decide +kernel) (by decide +kernel)),
    answers ((h sRelay _ 50 (acts_of (by decide) rfl rfl) rfl).2.2 4 _ rfl (by decide +kernel) (by decide +kernel)
      (by decide +kernel) (by decide +kernel))⟩

def sNoMarshal : State := { sFollower with proc.groups := [] }

theorem meets_PouvexStopsWithTheMarshal (h : Obligations.PouvexStopsWithTheMarshal) :
    Answers (exec (.beaconSend 50) sNoMarshal) :=
  answers (h sNoMarshal _ 50 0 3 4 1 1 7 3 [] ownHash true
      { role := 1, sync := 0, lanes := 1, flags := 8, epoch := 4, count := 9 }
      { epoch := 9, node := 0, flags := 0, rosterCommits := 0, seconds := 1, nanos := 2 } { bytes := [], role := 1 } 1 (acts_of
      (by decide) rfl rfl) rfl (by decide +kernel) (.beaconSend 50) (by simp))

end Sys2Proof.Tests.L

namespace Sys2Proof.Tests.M

def sDrain : State := { State.reset with pow := { target := some (.hold, false), drainEnd := some 40 } }

def sDone : State := { State.reset with pow := { target := some (.hold, false), doneAt := some 40, slices := [(1, { state := .run })] } }

def sAsleep : State := { State.reset with boot.state := .complete, pow := { state := .dormant, target := some (.hold, false) } }

def sEnter : State := { State.reset with pow := { state := .hold, target := some (.dormant, false), millivolts := 800, slices := [(1, { state := .doze })] }, host.rings := [(4, { state := .running })] }

def sEnterLow : State := { sEnter with pow.millivolts := 650, pow.timer := 9 }

def sDormant : State := { State.reset with dict.vals := [(entryKey 0xC000 7, [7, 0, 0, 0])], pow := { state := .dormant, timerEnd := some 40 } }

def sResting : State := { sEnterLow with pow.sinking := true, proc.cores := [(1, { mode := .sleep, restsAt := 900 })] }

theorem meets_DeviceStatesAreReached (h : Obligations.DeviceStatesAreReached) :
    Answers (exec (.holdDrainEnd 50) sDrain) ∧
    Answers (exec (.transitionComplete 50) sDone) ∧
    Answers (exec (.transitionComplete 50) sAsleep) ∧
    Answers (exec (.dormantEntry 50) sEnterLow) ∧
    Answers (exec (.dormantEntry 50) sResting) ∧
    Answers (exec (.dormantEntry 50) sEnter) ∧
    Answers (exec (.wakeNAssert 50) sDormant) ∧
    Answers (exec (.serviceButtonWake 50) sDormant) ∧
    Answers (exec (.dormantWakeTimer 50) sDormant) :=
  ⟨answers ((h sDrain _ 50 (upAt_of rfl rfl) rfl).1 40 (by decide +kernel) rfl (by decide +kernel)),
    answers (((h sDone _ 50 (upAt_of rfl rfl) rfl).2.1 .hold false rfl (by decide +kernel) rfl).1 (by decide +kernel)),
    answers (((h sAsleep _ 50 (upAt_of rfl rfl) rfl).2.1 .hold false rfl (by decide +kernel) rfl).2 (by decide +kernel) rfl),
    answers (((h sEnterLow _ 50 (upAt_of rfl rfl) rfl).2.2.1 (by decide +kernel) rfl).1 (.inr ⟨rfl, (by decide +kernel),
      (by decide +kernel), .inr (by decide +kernel), (show _ by decide +kernel)⟩) (by decide +kernel) rfl),
    answers (((h sResting _ 50 (upAt_of rfl rfl) rfl).2.2.1 (by decide +kernel) rfl).2.1 rfl ⟨(1,
      { mode := .sleep, restsAt := 900 }), (by decide +kernel)⟩),
    answers (((h sEnter _ 50 (upAt_of rfl rfl) rfl).2.2.1 (by decide +kernel) rfl).2.2 775 rfl (by decide +kernel)
      (by decide +kernel) rfl (by decide +kernel) (show _ by decide +kernel) (by decide +kernel)),
    answers (((h sDormant _ 50 (upAt_of rfl rfl) rfl).2.2.2 (by decide +kernel) rfl).1 (by decide +kernel)),
    answers (((h sDormant _ 50 (upAt_of rfl rfl) rfl).2.2.2 (by decide +kernel) rfl).2.1 (by decide +kernel)),
    answers (((h sDormant _ 50 (upAt_of rfl rfl) rfl).2.2.2 (by decide +kernel) rfl).2.2 40 (by decide +kernel) rfl
      (by decide +kernel))⟩

def sQuiet : State := { State.reset with
    dict.vals := [(entryKey 0xC100 1, [2]), (entryKey 0xC101 1, [1])]
    pow := { state := .quiet, slices := [(0, { state := .run, idleSince := some 0 }), (1, { state := .run, idleSince := some 0 }), (2, { state := .off, wakeAt := some 40 })] } }

def sLoops : State := { State.reset with
    dict.vals := [(entryKey 0x2000 1, [1]), (entryKey 0xC200 8, [1, 0, 0, 0, 0, 0, 0, 0])]
    ports := [(0, { link := .up })], buf.thresholdRefused := true
    pow := { unlocked := [.judge], writing := some (700, 0, 0), trim := 5, slices := [(1, { state := .run, step := 1, goal := 1 })] } }

def sTired : State := { sLoops with pow.writing := some (700, 3, 0) }

def sGated : State := { sLoops with pow.unlocked := [.memory], flow.hdmWaits := [(64, .good)] }

def sSink : State := { sEnter with pow.sinking := true, pow.writing := some (650, 0, 0) }

def sSinkTired : State := { sEnter with pow.sinking := true, pow.writing := some (650, 3, 0) }

theorem meets_SlicesRestAndLoopsStayInBounds (h : Obligations.SlicesRestAndLoopsStayInBounds) :
    Answers (exec (.sliceIdleEntry 1000000000000 1) sQuiet) ∧
    Answers (exec (.sliceReachesRun 50 2) sQuiet) ∧
    Answers (exec (.pllLockLost 50 .pipeline) sLoops) ∧
    Answers (exec (.pllLockLost 50 (.lane 0)) sLoops) ∧
    Answers (exec (.pllRelock 50 .judge) sLoops) ∧
    Answers (exec (.pllRelock 50 .memory) sGated) ∧
    Answers (exec (.pllRelock 50 (.lane 35)) (have __src := sLoops;
      { nv := __src.nv, ao := __src.ao, now := __src.now, draw := __src.draw, out := __src.out, dict := have __src := __src.dict; { vals := [(entryKey 45056 1, [1])], staged := __src.staged, groups := __src.groups, transfers := __src.transfers, served := __src.served, secure := __src.secure, nonsecure := __src.nonsecure, completed := __src.completed, aborted := __src.aborted, wakes := __src.wakes }, evt := __src.evt, route := __src.route, cnt := __src.cnt, acc := __src.acc, host := __src.host, dom := __src.dom, wires := __src.wires, proc := __src.proc, mbox := __src.mbox, ports := __src.ports, rules := __src.rules, fdb := __src.fdb, flow := __src.flow, buf := __src.buf, egress := __src.egress, queues := __src.queues, rounds := __src.rounds, red := __src.red, split := __src.split, captured0 := __src.captured0, captured1 := __src.captured1, pair := __src.pair, pow := have __src := __src.pow; { state := __src.state, target := __src.target, queued := __src.queued, outcome := __src.outcome, drainEnd := __src.drainEnd, doneAt := __src.doneAt, wakeSource := __src.wakeSource, slices := __src.slices, spans := __src.spans, planEnd := __src.planEnd, planLate := __src.planLate, planned := __src.planned, uncovered := __src.uncovered, millivolts := __src.millivolts, margin := __src.margin, trim := __src.trim, above := __src.above, avs := __src.avs, writing := __src.writing, shortfall := __src.shortfall, held := __src.held, unlocked := [.lane 35], gatedAt := __src.gatedAt, codes := __src.codes, taps := __src.taps, replaced := __src.replaced, sinking := __src.sinking, timer := __src.timer, timerEnd := __src.timerEnd, dormantAt := __src.dormantAt }, boot := __src.boot, panel := __src.panel, clock0 := __src.clock0, clock1 := __src.clock1, pending := __src.pending }))
      ∧
    Answers (exec (.bufferThresholdEval 50) sLoops) ∧
    Answers (exec (.placementLoopEval 50) sLoops) ∧
    Answers (exec (.receiverAdaptation 50 0 31) sLoops) ∧
    Answers (exec (.voltageLoopEval 50 (-20) 10 30) sLoops) ∧
    Answers (exec (.avsbusStatusPoll 50 true) sLoops) ∧
    Answers (exec (.avsbusStatusPoll 50 true) sSink) ∧
    Answers (exec (.avsbusStatusPoll 50 false) sLoops) ∧
    Answers (exec (.avsbusTimeout 100000000) sLoops) ∧
    Answers (exec (.avsbusTimeout 99999999) sLoops) ∧
    Answers (exec (.avsbusTimeout 100000000) sTired) ∧
    Answers (exec (.avsbusTimeout 100000000) sSinkTired) ∧
    Answers (exec (.frequencyLoopEval 50 100 500 500 500) sLoops) :=
  ⟨answers ((h.1 sQuiet _ 1000000000000 1 (acts_of (by decide) rfl rfl) rfl).1 .nap (by decide +kernel) (by decide +kernel) rfl
      (by decide +kernel) (by decide +kernel) (.inr ⟨(show _ by decide +kernel), (by decide +kernel),
      (fun w x => absurd (show none = some w from x) (by simp))⟩)),
    answers ((h.1 sQuiet _ 50 2 (acts_of (by decide) rfl rfl) rfl).2.1 40 rfl (by decide +kernel) (by decide +kernel)),
    answers (((h.1 sLoops _ 50 0 (acts_of (by decide) rfl rfl) rfl).2.2.1 .pipeline (by decide +kernel) (by decide +kernel)).1
      (fun _ => nofun)),
    answers (((h.1 sLoops _ 50 0 (acts_of (by decide) rfl rfl) rfl).2.2.1 (.lane 0) (by decide +kernel) (by decide +kernel)).2 0
      rfl),
    answers ((h.1 sLoops _ 50 0 (acts_of (by decide) rfl rfl) rfl).2.2.2 .judge _ (by decide +kernel) rfl),
    answers ((h.1 sGated _ 50 0 (acts_of (by decide) rfl rfl) rfl).2.2.2 .memory _ (by decide +kernel) rfl),
    answers ((h.1 { sLoops with pow.unlocked := [.lane 35], dict.vals := [(entryKey 0xB000 1, [1])] } _ 50 0 (acts_of
      (by decide) rfl rfl) rfl).2.2.2 (.lane 35) _ (by decide +kernel) rfl),
    answers ((h.2 sLoops _ 50 (acts_of (by decide) rfl rfl) rfl).1 _ _ _ rfl rfl rfl),
    answers ((h.2 sLoops _ 50 (acts_of (by decide) rfl rfl) rfl).2.1 _ _ rfl rfl),
    answers ((h.2 sLoops _ 50 (acts_of (by decide) rfl rfl) rfl).2.2.1 0 31 (by decide +kernel) (by decide +kernel)
      (by decide +kernel)),
    answers ((h.2 sLoops _ 50 (acts_of (by decide) rfl rfl) rfl).2.2.2.1 (-20) 10 30 _ _ rfl rfl),
    answers (((h.2 sLoops _ 50 (acts_of (by decide) rfl rfl) rfl).2.2.2.2.1 700 0 0 rfl).1 rfl),
    answers (((h.2 sSink _ 50 (acts_of (by decide) rfl rfl) rfl).2.2.2.2.1 650 0 0 rfl).2.1 rfl (by decide +kernel)
      (by decide +kernel) rfl),
    answers (((h.2 sLoops _ 50 (acts_of (by decide) rfl rfl) rfl).2.2.2.2.1 700 0 0 rfl).2.2.1),
    answers (((h.2 sLoops _ 100000000 (acts_of (by decide) rfl rfl) rfl).2.2.2.2.1 700 0 0 rfl).2.2.2.1 (by decide +kernel)
      (by decide +kernel)),
    answers (((h.2 sLoops _ 99999999 (acts_of (by decide) rfl rfl) rfl).2.2.2.2.1 700 0 0 rfl).2.2.2.2.1 (by decide +kernel)),
    answers (((h.2 sTired _ 100000000 (acts_of (by decide) rfl rfl) rfl).2.2.2.2.1 700 3 0 rfl).2.2.2.2.2.1 (by decide +kernel)
      (by decide +kernel) rfl),
    answers (((h.2 sSinkTired _ 100000000 (acts_of (by decide) rfl rfl) rfl).2.2.2.2.1 650 3 0 rfl).2.2.2.2.2.2
      (by decide +kernel) (by decide +kernel) rfl (by decide +kernel) rfl),
    answers ((h.2 sLoops _ 50 (acts_of (by decide) rfl rfl) rfl).2.2.2.2.2 100 500 500 500)⟩

end Sys2Proof.Tests.M

namespace Sys2Proof.Tests.N

def sUsed : State := { State.reset with nv := { ownerBad := true, leaf := 5 }, ao := { node := 5, warmResets := 65535, perstHigh := true }, now := 9, draw := 4, pow.millivolts := 800, host.speed := 5 }

def sPulled : State := { sUsed with ao.coldLow := true }

theorem meets_ResetsKeepWhatTheyKeep (h : Obligations.ResetsKeepWhatTheyKeep) :
    Answers (exec (.coldReset (ColdReset.asserted 50)) sUsed) ∧
    Answers (exec (.coldReset (ColdReset.released 50)) sUsed) ∧
    Answers (exec (.warmReset 50) sUsed) ∧
    Answers (exec (.warmReset 50) sPulled) :=
  ⟨answers ((h sUsed 50 _ rfl).1 (.asserted 50) true (by decide +kernel)),
    answers ((h sUsed 50 _ rfl).1 (.released 50) false (by decide +kernel)),
    answers ((h sUsed 50 _ rfl).2.1 rfl),
    answers ((h sPulled 50 _ rfl).2.2 rfl)⟩

def dirHead : List Byte := [0x47, 0x4C, 0x44, 0x52, 1, 0, 0, 0, 1] ++ List.replicate 4083 0

def dirA : List Byte := dirHead ++ leBytes 4 (crc32c dirHead)

theorem dirA_valid : dirValid dirA = true := by
  simp only [dirValid, Bool.and_eq_true]
  exact ⟨⟨⟨⟨⟨(by decide +kernel), (by decide +kernel)⟩, (by decide +kernel)⟩, directory_crc dirHead (by rw [dirHead, List.length_append, List.length_replicate]; rfl)⟩, (by decide +kernel)⟩, (show _ by decide +kernel)⟩

def sBoot (k : Nat) : State := { State.reset with boot.step := k }

def sSet (k : Nat) : State := { State.reset with boot := { step := k, flashSet := some 0 }, nv := { flashA := dirA } }

def sTried (k : Nat) : State := { State.reset with boot := { step := k, flashSet := some 0, tried := true }, nv := { flashA := dirA } }

theorem no_directory : dirValid [] = false := by
  simp only [dirValid, show (Machine.slice [] 0 4 == asciiOf 0x47 0x4C 0x44 0x52) = false by decide +kernel, Bool.false_and]

theorem prefers_A (v : Nv) (a : dirValid v.flashA = true) (b : dirValid v.flashB = false) : v.preferred = some 0 := by
  simp [Nv.preferred, a, b]

theorem chooses_when_cold (s : State) (c : s.boot.cold = true) : s.chooseSet = s.nv.preferred := by simp [State.chooseSet, c]

theorem chooses_dirA : ((sSet 5).enter 50).chooseSet = some 0 :=
  (chooses_when_cold _ rfl).trans (prefers_A ((sSet 5).enter 50).nv dirA_valid no_directory)

def sGone : State := { State.reset with nv := { lifecycle := 0b1111 } }

def sWarm : State := { State.reset with boot := { step := 3, cold := false } }

def sUpdate : State := { State.reset with boot := { flashSet := some 0, updating := some [1, 2, 3] } }

theorem meets_BootStepsLeadOn (h : Obligations.BootStepsLeadOn) :
    Answers (exec (.bootStepDone 50 .done) sGone) ∧
    Answers (exec (.bootStepDone 50 .done) State.reset) ∧
    Answers (exec (.bootStepDone 50 .fuseBad) State.reset) ∧
    Answers (exec (.bootStepDone 50 .secretBad) State.reset) ∧
    Answers (exec (.bootStepDone 50 .done) (sBoot 2)) ∧
    Answers (exec (.bootStepDone 50 .done) sWarm) ∧
    Answers (exec (.bootStepDone 50 .done) (sBoot 3)) ∧
    Answers (exec (.bootStepDone 50 .done) (sBoot 4)) ∧
    Answers (exec (.bootStepDone 50 .flashSilent) (sBoot 5)) ∧
    Answers (exec (.bootStepDone 50 .done) (sBoot 5)) ∧
    Answers (exec (.bootStepDone 50 .done) (sSet 5)) ∧
    Answers (exec (.bootStepDone 50 .done) (sSet 6)) ∧
    Answers (exec (.bootStepDone 50 .done) (sTried 6)) ∧
    Answers (exec (.bootStepDone 50 (.stackBad 1)) (sBoot 7)) ∧
    Answers (exec (.bootStepDone 50 .done) (sBoot 7)) ∧
    Answers (exec (.bootStepDone 50 .done) (sBoot 8)) ∧
    Answers (exec (.bootStepDone 50 .done) (sBoot 9)) ∧
    Answers (exec (.bootStepDone 50 .done) (sBoot 10)) ∧
    Answers (exec (.bootStepDone 50 .done) (sBoot 11)) ∧
    Answers (exec (.flashUpdateDone 50 true) sUpdate) ∧
    Answers (exec (.flashUpdateDone 50 false) sUpdate) :=
  ⟨answers (((h sGone _ 50 (upAt_of rfl rfl) rfl).1 rfl).1 rfl rfl .done),
    answers ((((h State.reset _ 50 (upAt_of rfl rfl) rfl).1 rfl).2.1 rfl (by decide +kernel)).1),
    answers ((((h State.reset _ 50 (upAt_of rfl rfl) rfl).1 rfl).2.1 rfl (by decide +kernel)).2.1),
    answers ((((h State.reset _ 50 (upAt_of rfl rfl) rfl).1 rfl).2.1 rfl (by decide +kernel)).2.2),
    answers (((h (sBoot 2) _ 50 (upAt_of rfl rfl) rfl).1 rfl).2.2.1 rfl),
    answers (((h sWarm _ 50 (upAt_of rfl rfl) rfl).1 rfl).2.2.2.1 rfl rfl),
    answers (((h (sBoot 3) _ 50 (upAt_of rfl rfl) rfl).1 rfl).2.2.2.2.1 rfl rfl),
    answers (((h (sBoot 4) _ 50 (upAt_of rfl rfl) rfl).1 rfl).2.2.2.2.2.1 rfl),
    answers ((((h (sBoot 5) _ 50 (upAt_of rfl rfl) rfl).1 rfl).2.2.2.2.2.2.1 rfl).1),
    answers ((((h (sBoot 5) _ 50 (upAt_of rfl rfl) rfl).1 rfl).2.2.2.2.2.2.1 rfl).2.1 (by decide +kernel)),
    answers ((((h (sSet 5) _ 50 (upAt_of rfl rfl) rfl).1 rfl).2.2.2.2.2.2.1 rfl).2.2 0 chooses_dirA),
    answers (((h (sSet 6) _ 50 (upAt_of rfl rfl) rfl).1 rfl).2.2.2.2.2.2.2.1 rfl),
    answers (((h (sTried 6) _ 50 (upAt_of rfl rfl) rfl).1 rfl).2.2.2.2.2.2.2.1 rfl),
    answers ((((h (sBoot 7) _ 50 (upAt_of rfl rfl) rfl).1 rfl).2.2.2.2.2.2.2.2.1 rfl).1 1),
    answers ((((h (sBoot 7) _ 50 (upAt_of rfl rfl) rfl).1 rfl).2.2.2.2.2.2.2.2.1 rfl).2),
    answers (((h (sBoot 8) _ 50 (upAt_of rfl rfl) rfl).1 rfl).2.2.2.2.2.2.2.2.2.1 rfl),
    answers (((h (sBoot 9) _ 50 (upAt_of rfl rfl) rfl).1 rfl).2.2.2.2.2.2.2.2.2.2.1 rfl (by decide +kernel)),
    answers (((h (sBoot 10) _ 50 (upAt_of rfl rfl) rfl).1 rfl).2.2.2.2.2.2.2.2.2.2.2.1 rfl),
    answers (((h (sBoot 11) _ 50 (upAt_of rfl rfl) rfl).1 rfl).2.2.2.2.2.2.2.2.2.2.2.2 rfl),
    answers (((h sUpdate _ 50 (upAt_of rfl rfl) rfl).2 [1, 2, 3] _ rfl rfl).1),
    answers (((h sUpdate _ 50 (upAt_of rfl rfl) rfl).2 [1, 2, 3] _ rfl rfl).2)⟩

def sTree : State := { State.reset with boot := { state := .complete, hostSlot := { generating := some ([1], 0) }, anchorSlot := { generating := some ([1], 2) } } }

def sDeferred : State := { State.reset with ao := { identity := .deferred } }

def sSpent : State := { sDeferred with nv.leaf := 1024 }

def sWaits : State := { sTree with ao := { leafDue := true } }

def sBlown : State := { sTree with ao := { leafDue := false } }

theorem meets_IdentityTreesAndReportsMove (h : Obligations.IdentityTreesAndReportsMove) :
    Answers (exec (.lowerTreeReady 50) sWaits) ∧
    Answers (exec (.lowerTreeReady 50) sBlown) ∧
    Answers (exec (.leafRenewal 100000000000000000) sDeferred) ∧
    Answers (exec (.leafRenewal 100000000000000000) sSpent) ∧
    Answers (exec (.leafRenewal 50) sDeferred) ∧
    Answers (exec (.reportReady 50 false) sTree) ∧
    Answers (exec (.reportReady 50 true) sTree) ∧
    Answers (exec (.attestTokenRefill 50) sTree) :=
  ⟨answers ((h sWaits _ 50 (upAt_of rfl rfl) rfl).1 rfl rfl rfl),
    answers ((h sBlown _ 50 (upAt_of rfl rfl) rfl).2.1 rfl rfl rfl),
    answers ((h sDeferred _ 100000000000000000 (upAt_of rfl rfl) rfl).2.2.1 rfl (by decide +kernel)),
    answers ((h sSpent _ 100000000000000000 (upAt_of rfl rfl) rfl).2.2.1 rfl (by decide +kernel)),
    answers ((h sDeferred _ 50 (upAt_of rfl rfl) rfl).2.2.2.1 (by decide +kernel)),
    answers ((h sTree _ 50 (upAt_of rfl rfl) rfl).2.2.2.2.1 false [1] 0 rfl),
    answers ((h sTree _ 50 (upAt_of rfl rfl) rfl).2.2.2.2.1 true [1] 2 rfl),
    answers ((h sTree _ 50 (upAt_of rfl rfl) rfl).2.2.2.2.2 rfl rfl)⟩

def sPanel : State := { State.reset with
    dict.vals := [(entryKey 0xF100 8, [0xFF, 0, 0, 0])]
    ao.node := 5, dom.member := true, proc.groups := [(0, { state := .running }), (2, { state := .running })]
    panel := { present := 1, changed := [(0, 0), (1, 0)], identifyEnd := some 60, die := 100000, dieHigh := 110000, therm := true } }

def sWorker : State := { sPanel with dict.vals := [(entryKey 0xB000 1, [1])] }

def sWithdraw : State := { sWorker with dom.withdrawDue := some 70 }

def sUnfitted : State := { sPanel with dict.vals := [(entryKey 0xF100 8, [1, 0, 0, 0])] }

def sButton : State := { sPanel with pow.state := .dormant, dict.vals := [(entryKey 0xC000 7, [2, 0, 0, 0])] }

def ipfix : List Byte := [2, 0, 0, 0, 0, 1, 2, 0, 0, 0, 0, 2, 8, 0, 0x45, 0, 0, 44, 0, 0, 0, 0, 64, 17, 0x66, 0xBF, 10, 0, 0, 1, 10, 0, 0, 2,
    0x12, 0x83, 0x12, 0x83, 0, 24, 0, 0, 0, 10, 0, 16, 0, 0, 0, 1, 0, 0, 0, 2, 0, 0, 0, 3]

def sExport : State := { sPanel with dict.vals := [(entryKey 0x3500 3,
    List.replicate 10 0 ++ [0xFF, 0xFF, 10, 0, 0, 2] ++ List.replicate 16 0 ++ [0x12, 0x83, 0, 0, 0, 0, 0, 0, 0, 0, 0, 3])] }

theorem meets_ThePanelAndTheSensorsAreRead (h : Obligations.ThePanelAndTheSensorsAreRead) :
    Answers (exec (.senseChainScan 50 110680464442257309699) sPanel) ∧
    Answers (exec (.modulePresenceChange 10000000000 1) sUnfitted) ∧
    Answers (exec (.modulePresenceChange 10000000000 1) sPanel) ∧
    Answers (exec (.modulePresenceChange 50 1) sPanel) ∧
    Answers (exec (.modulePresenceChange 1000000000 0) sPanel) ∧
    Answers (exec (.modulePresenceChange 50 0) sPanel) ∧
    Answers (exec (.ledChainLatch 50) sPanel) ∧
    Answers (exec (.identifyTimeout 60) sPanel) ∧
    Answers (exec (.identifyTimeout 50) sPanel) ∧
    Answers (exec (.thermalSample 50 { die := 118000, stack0 := 85001, stack1 := 85000 }) sPanel) ∧
    Answers (exec (.serviceButtonLongPress 50) sPanel) ∧
    Answers (exec (.serviceButtonRelease 50) sButton) ∧
    Answers (exec (.serviceButtonLongPress 50) sButton) ∧
    Answers (exec (.serviceButtonRelease 50) sWorker) ∧
    Answers (exec (.serviceButtonRelease 50) sWithdraw) ∧
    Answers (exec (.ipfixMessageSend 50 ipfix) sExport) ∧
    Answers (exec (.ipfixMessageSend 50 [1, 2, 3]) sExport) ∧
    Answers (exec (.ipfixMessageSend 50 [1, 2, 3]) State.reset) :=
  ⟨answers ((h sPanel _ 50 (upAt_of rfl rfl) rfl).1 0x060000000000000003),
    answers (((h sUnfitted _ 10000000000 (upAt_of rfl rfl) rfl).2.1 1 0 rfl (by decide +kernel)).1 (by decide +kernel)
      (by decide +kernel)),
    answers (((h sPanel _ 10000000000 (upAt_of rfl rfl) rfl).2.1 1 0 rfl (by decide +kernel)).2.1 (by decide +kernel)
      (by decide +kernel)),
    answers (((h sPanel _ 50 (upAt_of rfl rfl) rfl).2.1 1 0 rfl (by decide +kernel)).2.2 (by decide +kernel)),
    answers (((h sPanel _ 1000000000 (upAt_of rfl rfl) rfl).2.2.1 0 0 rfl (by decide +kernel)).1 (by decide +kernel)),
    answers (((h sPanel _ 50 (upAt_of rfl rfl) rfl).2.2.1 0 0 rfl (by decide +kernel)).2 (by decide +kernel)),
    answers ((h sPanel _ 50 (upAt_of rfl rfl) rfl).2.2.2.1),
    answers (((h sPanel _ 60 (upAt_of rfl rfl) rfl).2.2.2.2.1 60 rfl).1 (by decide +kernel)),
    answers (((h sPanel _ 50 (upAt_of rfl rfl) rfl).2.2.2.2.1 60 rfl).2 (by decide +kernel)),
    answers ((h sPanel _ 50 (upAt_of rfl rfl) rfl).2.2.2.2.2.1 { die := 118000, stack0 := 85001, stack1 := 85000 }),
    answers ((h sPanel _ 50 (upAt_of rfl rfl) rfl).2.2.2.2.2.2.1 (by decide +kernel)),
    answers ((h sButton _ 50 (upAt_of rfl rfl) rfl).2.2.2.2.2.2.2.1 (.inr (by decide +kernel))),
    answers ((h sButton _ 50 (upAt_of rfl rfl) rfl).2.2.2.2.2.2.2.2.1 (by decide +kernel)),
    answers (((h sWorker _ 50 (upAt_of rfl rfl) rfl).2.2.2.2.2.2.2.2.2 (acts_of (by decide) rfl rfl)).1 (by decide +kernel)
      (by decide +kernel) rfl),
    answers (((h sWithdraw _ 50 (upAt_of rfl rfl) rfl).2.2.2.2.2.2.2.2.2 (acts_of (by decide) rfl rfl)).2.1 rfl),
    answers (((h sExport _ 50 (upAt_of rfl rfl) rfl).2.2.2.2.2.2.2.2.2 (acts_of (by decide) rfl rfl)).2.2.1 ipfix
      (by decide +kernel) (by decide +kernel) (by decide +kernel) (by decide +kernel) rfl),
    answers (((h sExport _ 50 (upAt_of rfl rfl) rfl).2.2.2.2.2.2.2.2.2 (acts_of (by decide) rfl rfl)).2.2.2 [1, 2, 3] (.inr
      (.inr (.inr (by decide +kernel))))),
    answers (((h State.reset _ 50 (upAt_of rfl rfl) rfl).2.2.2.2.2.2.2.2.2 (acts_of (by decide) rfl rfl)).2.2.2 [1, 2, 3] (.inl
      (by decide +kernel)))⟩

end Sys2Proof.Tests.N

namespace Sys2Proof.Tests.W

/-- A queue with a command in front, and an empty one. -/
theorem meets_StepRunsTheFrontCommand (h : Obligations.StepRunsTheFrontCommand) :
    step { State.reset with pending := [.flr 4] } = exec (.flr 4) { State.reset with pending := [] } ∧
    step State.reset = .next State.reset :=
  ⟨h.2.1 { State.reset with pending := [.flr 4] } (.flr 4) [] rfl, h.2.2 State.reset rfl⟩

/-- A decommissioned device. -/
def sGone : State := { State.reset with nv.lifecycle := 0b1111 }

theorem meets_FusesAreNeverUnblown (h : Obligations.FusesAreNeverUnblown) :
    FusesKept State.reset.nv State.reset.nv ∧ sGone.decommissioned ∧
    (Answers (exec (.flr 4) State.reset) ∧ ∀ s', exec (.flr 4) State.reset = .next s' → s'.nv = State.reset.nv) :=
  ⟨h.1 State.reset State.reset rfl, h.2.1 sGone sGone rfl rfl, ⟨_, rfl⟩, fun s' => h.2.2 (.flr 4) State.reset s' rfl⟩

theorem meets_DormantStopsEverythingElse (h : Obligations.DormantStopsEverythingElse) :
    Answers (exec (.parse 5 0) { State.reset with pow.state := .dormant }) :=
  answers (h (.parse 5 0) { State.reset with pow.state := .dormant } rfl rfl)

theorem meets_CountersMoveOnlyWhereTheirRowsSay (h : Obligations.CountersMoveOnlyWhereTheirRowsSay) :
    (∃ l, countersOf (.identifyTimeout 5) = some l ∧ 7 ∉ l) ∧ 7 ∉ reportCounters ∧ 7 ∉ timeCounters ∧
    Answers (exec (.identifyTimeout 5) State.reset) ∧
    ∀ s', exec (.identifyTimeout 5) State.reset = .next s' → s'.tally 7 = State.reset.tally 7 :=
  ⟨⟨_, rfl, by decide +kernel⟩, by decide +kernel, by decide +kernel, ⟨_, rfl⟩,
    fun s' x => h (.identifyTimeout 5) _ State.reset s' rfl x 7 (by decide +kernel) (by decide +kernel) (by decide +kernel)⟩

end Sys2Proof.Tests.W

end
end

/-! PROOFS. The Lysram dictionary's family: status words that clear by sequence number (02 R45) and windows that drop writes
while a command is in progress (02 R37). -/

section
namespace Sys2Proof.Machine

/-! ### Status words: a hold-off that is not due, a clearing write, an event after it (02 R45, R46) -/

/-- No deferred advance of source `n` is due at the state's instant. -/
def State.holdOpen (s : State) (n : Nat) : Prop :=
  (s.source n).fell = true → ∀ h, (s.source n).holdEnd = some h → s.now < h

theorem closeHoldOff_of_holdOpen {raise : Raiser} {d : Bool} {n : Nat} {s : State} (h : s.holdOpen n) :
    closeHoldOff raise d n s = s := by
  unfold closeHoldOff
  dsimp only
  cases hold : (s.source n).holdEnd with
  | none => rfl
  | some a =>
    refine if_neg fun due => ?_
    simp only [Bool.and_eq_true, decide_eq_true_eq] at due
    exact absurd (h due.1 a hold) (Nat.not_lt.2 due.2)

/-- The status word that a clearing write of `value` leaves of `e` at the instant `now` (02 R45). -/
def EventSource.clearedBy (e : EventSource) (value : Word) (now : Nat) : EventSource :=
  if e.seq ≠ 0 ∧ value.toNat / 2 ^ 16 = e.seq.toNat ∧ e.eventAt ≠ some now then
    { e with pend := false, flags := 0, cleared := some (now, e.flags ||| e.taken now) }
  else e

@[simp] theorem clearedBy_fell (e : EventSource) (v : Word) (now : Nat) : (e.clearedBy v now).fell = e.fell := by
  unfold EventSource.clearedBy; split <;> rfl

@[simp] theorem clearedBy_holdEnd (e : EventSource) (v : Word) (now : Nat) :
    (e.clearedBy v now).holdEnd = e.holdEnd := by
  unfold EventSource.clearedBy; split <;> rfl

/-- What a clearing write takes from FLAGS, an event of the same clock finds again. -/
theorem flags_subset_clearedBy (e : EventSource) (v : Word) (now : Nat) :
    e.flags &&& ((e.clearedBy v now).flags ||| (e.clearedBy v now).taken now) = e.flags := by
  unfold EventSource.clearedBy
  split
  · simp [EventSource.taken, flags_or]
  · exact flags_or ..

/-- A write to a status word acts on that word alone, and the write is `clearedBy`. -/
theorem statusClear_cases {n : Nat} {v : Word} {s : State} (h : s.holdOpen n) :
    s.statusClear n v = s.setSource n ((s.source n).clearedBy v s.now) ∨
    (s.statusClear n v = s ∧ (s.source n).clearedBy v s.now = s.source n) := by
  unfold State.statusClear EventSource.clearedBy
  rw [closeHoldOff_of_holdOpen h]
  by_cases hc : (s.source n).seq ≠ 0 ∧ v.toNat / 2 ^ 16 = (s.source n).seq.toNat ∧ (s.source n).eventAt ≠ some s.now
  · left; simp only [if_pos hc]
  · right; simp only [if_neg hc, and_self]

theorem source_statusClear {n : Nat} {v : Word} {s : State} (h : s.holdOpen n) :
    (s.statusClear n v).source n = (s.source n).clearedBy v s.now := by
  obtain hw | ⟨hw, hc⟩ := statusClear_cases (v := v) h
  · rw [hw, source_setSource_same]
  · rw [hw, hc]

theorem source_statusClear_other {n m : Nat} {v : Word} {s : State} (h : s.holdOpen n) (hm : m ≠ n) :
    (s.statusClear n v).source m = s.source m := by
  obtain hw | ⟨hw, -⟩ := statusClear_cases (v := v) h
  · rw [hw, source_setSource_other s _ hm]
  · rw [hw]

/-- A part that no write to the status words touches, a clearing write leaves as it is. -/
theorem statusClear_part {β : Type} (g : State → β) (hg : ∀ (s : State) n e, g (s.setSource n e) = g s) {n : Nat}
    {v : Word} {s : State} (h : s.holdOpen n) : g (s.statusClear n v) = g s := by
  obtain hw | ⟨hw, -⟩ := statusClear_cases (v := v) h <;> rw [hw]
  exact hg ..

/-! #### An event keeps the flags that stand, and those that a clearing write of its clock took -/

theorem told_mono {s : State} {n : Nat} {f g : BitVec 15} (h : f &&& g = f) (k : s.told n g.toNat) :
    s.told n f.toNat := by
  obtain ⟨hp, hg⟩ := k
  refine ⟨hp, ?_⟩
  simp only [BitVec.ofNat_toNat, BitVec.setWidth_eq] at hg ⊢
  calc (s.source n).flags &&& f
      = (s.source n).flags &&& g &&& f := by rw [BitVec.and_assoc, BitVec.and_comm g f, h]
    _ = f := by rw [hg, BitVec.and_comm, h]

/-- An advance of SEQ sets PEND beside the flags that stand. -/
theorem told_seqAdvance_flags {raise : Raiser} (h : Adds raise) (d : Bool) (n f a : Nat) (s : State) :
    (seqAdvance raise d n f a s).told n (s.source n).flags.toNat := by
  unfold seqAdvance
  refine (grows_advanceEffects h d n _).1 n _ ?_
  unfold State.told
  rw [source_setSource_same]
  refine ⟨rfl, ?_⟩
  rw [BitVec.ofNat_toNat, BitVec.setWidth_eq, BitVec.and_comm]
  exact flags_or ..

theorem told_raiseWith_flags {raise : Raiser} (ha : Adds raise) {d : Bool} {n : Nat} {s : State} (h : s.holdOpen n)
    (f : Nat) (c : List Byte) :
    (raiseWith raise d n f c s).told n ((s.source n).flags ||| (s.source n).taken s.now).toNat := by
  unfold raiseWith
  rw [closeHoldOff_of_holdOpen h]
  extract_lets s1 c1 s2 src e inHold
  have hs : s2.source n = s.source n := by unfold s2; split <;> rfl
  have hn : s2.now = s.now := by unfold s2; split <;> rfl
  have he : e.flags = (s.source n).flags ||| (s.source n).taken s.now := by
    simp only [e, src, hs, hn]
  rw [← he]
  split
  · unfold State.told
    rw [source_setSource_same]
    refine ⟨rfl, ?_⟩
    rw [BitVec.ofNat_toNat, BitVec.setWidth_eq, BitVec.and_comm]
    exact flags_or ..
  · have k := told_seqAdvance_flags ha d n f s2.now (s2.setSource n e)
    rw [source_setSource_same] at k
    exact k

/-- An event of a source tells the flags that stand there and those that a clearing write of the same clock took. -/
theorem told_raise_flags {n : Nat} {s : State} (h : s.holdOpen n) (f : Nat) (c : List Byte) :
    (s.raise n f c).told n ((s.source n).flags ||| (s.source n).taken s.now).toNat :=
  told_raiseWith_flags (adds_raiseN 3 s.dormant) h f c

/-! #### The command -/

/-- STATUS_CLEAR runs in every state that is held in no reset, and in DORMANT for DARK_STATUS alone (02 R52). -/
theorem exec_statusClear {s : State} {t : Nat} {n : Fin 1024} {v : Word} (h : s.upAt t)
    (hd : s.dormant = true → n.val = 0x180) :
    exec (.statusClear t n v) s = .next (s.ends t ((s.enter t).statusClear n v)) := by
  have served : ((s.enter t).dormant && n.val != evDark) = false := by
    rw [enter_dormant]
    cases hs : s.dormant with
    | false => rfl
    | true => simp [hd hs, evDark]
  show s.runAny t _ = _
  rw [runAny_eq _ h]
  simp only [served, Bool.false_eq_true, if_false]

/-- Settles O1: in a calm state the write reaches its own status word alone, and an event of the same clock sets again what it
cleared. -/
theorem statusWordClearsBySequence : Obligations.StatusWordClearsBySequence := by
  unfold Obligations.StatusWordClearsBySequence
  intro s t n v hup hcalm hdormant hopen
  have hsrc (m : Nat) : (s.enter t).source m = s.source m := enter_source hcalm m
  have hnow : (s.enter t).now = max s.now t := enter_now s t
  have hhold : (s.enter t).holdOpen n := by
    unfold State.holdOpen
    rw [hsrc, hnow]
    exact hopen
  have hsettled := enter_settled hcalm
  have hbody := statusClear_part State.body body_setSource (v := v) hhold
  have hcnt := statusClear_part State.cnt State.setSource_cnt (v := v) hhold
  have hpair := statusClear_part State.pair State.setSource_pair (v := v) hhold
  have hwires := statusClear_part State.wires State.setSource_wires (v := v) hhold
  have hexact : Exact ((s.enter t).statusClear n v) (s.ends t ((s.enter t).statusClear n v)) := by
    refine ends_exact ?_
    unfold State.wiresIdle State.wire
    rw [hcnt, hpair, hwires]
    exact hsettled
  have hevt (m : Nat) : (s.ends t ((s.enter t).statusClear n v)).source m = ((s.enter t).statusClear n v).source m := by
    unfold State.source; rw [hexact.1]
  have hown : (s.ends t ((s.enter t).statusClear n v)).source n = (s.source n).clearedBy v (max s.now t) := by
    rw [hevt, source_statusClear hhold, hsrc, hnow]
  refine ⟨_, exec_statusClear hup hdormant, ends_body hbody (held_enter s t), fun m hm => ?_, hown, fun f c => ?_⟩
  · rw [hevt, source_statusClear_other hhold hm, hsrc]
  · have hend : (s.ends t ((s.enter t).statusClear n v)).now = max s.now t := rfl
    have hstill : (s.ends t ((s.enter t).statusClear n v)).holdOpen n := by
      unfold State.holdOpen
      rw [hown, hend, clearedBy_fell, clearedBy_holdEnd]
      exact hopen
    have k := told_raise_flags hstill f c
    rw [hown, hend] at k
    exact told_mono (flags_subset_clearedBy ..) k

/-! ### Windows: writes while BUSY (02 R37) -/

/-- Fuses that nothing has changed are burnt as they were. -/
theorem orBytes_self (l : List Byte) : orBytes l l = l := by
  induction l with
  | nil => rfl
  | cons b l ih => rw [orBytes, ih, BitVec.or_self]

theorem burn_self (a : Nv) : a.burn a = a := by
  simp [Nv.burn, orBytes_self]

/-- The body that a command leaves whose effect changed neither the instant nor what a runner puts back. -/
theorem endsNv_body_of_held {s x : State} {t : Nat} (h : Held s t x) : (s.endsNv t x).body = x.body := by
  obtain ⟨hnow, hpending, hnv, -⟩ := held_body h
  rw [endsNv_body, h.nv, burn_self, ← hnow, ← hpending, ← hnv]

theorem barSize_words {bar : Bar} {off n : Nat} (hb : bar ≠ .bar4) (h : barSize bar off n = true) :
    (n + 3) / 4 = n / 4 ∧ 0 < n / 4 := by
  simp only [barSize, Bool.or_eq_true, Bool.and_eq_true, beq_iff_eq, decide_eq_true_eq, hb, false_or] at h
  omega

/-- Steps each of which makes `x` of the state, and makes it of `x` again. -/
theorem foldl_absorbed {α : Type} {f : State → α → State} {s x : State} {l : List α} (hl : l ≠ [])
    (hf : ∀ a ∈ l, f s a = x ∧ f x a = x) : l.foldl f s = x := by
  have stays : ∀ l : List α, (∀ a ∈ l, f x a = x) → l.foldl f x = x := fun l h => by
    induction l with
    | nil => rfl
    | cons a r ih => rw [List.foldl_cons, h a List.mem_cons_self, ih fun b hb => h b (List.mem_cons_of_mem _ hb)]
  obtain ⟨a, r, rfl⟩ := List.exists_cons_of_ne_nil hl
  rw [List.foldl_cons, (hf a List.mem_cons_self).1]
  exact stays r fun b hb => (hf b (List.mem_cons_of_mem _ hb)).2

/-- A write of the host that R268 accepts, each of whose words makes `x` of the state. -/
theorem barWrite_absorbed {s x : State} {bar : Bar} {off : Nat} {data : BarData} (hb : bar ≠ .bar4)
    (hh : s.hears .host = true) (hfull : data.full = true) (hsize : barSize bar off data.bytes.length = true)
    (hw : ∀ i, i < data.bytes.length / 4 → ∀ w,
      s.barWord .host bar (off + 4 * i) w = x ∧ x.barWord .host bar (off + 4 * i) w = x) :
    s.barWrite .host bar off data = x := by
  obtain ⟨hwords, hpos⟩ := barSize_words hb hsize
  unfold State.barWrite
  simp only [hh, hfull, hsize, hwords, Bool.not_true, bne_self_eq_false, Bool.false_and, Bool.or_self,
    Bool.false_eq_true, if_false]
  refine foldl_absorbed (by simpa using Nat.pos_iff_ne_zero.1 hpos) fun i hi => ?_
  exact hw i (List.mem_range.1 hi) _

/-- The command's own form of `barWrite_absorbed`. -/
theorem does_registerWrite_absorbed {s e x : State} {t : Nat} {bar : Bar} {off : Nat} {data : BarData} (ha : s.acts t)
    (he : e = s.enter t) (hw : e.barWrite .host bar off data = x) (hx : Held s t x) :
    Does (.registerWrite t .host bar off data) s fun s' => s'.body = x.body := by
  refine ⟨s.endsNv t x, ?_, endsNv_body_of_held hx⟩
  show s.runNv t _ = _
  rw [runNv_eq _ ha.up, ← he, hw]

/-- The offsets of a window that R37 speaks of: DW_CMD, DW_LEN, DW_TAG and DW_DATA (02 Table 2.2). -/
def windowWritten (o : Nat) : Prop := o < 0xC ∨ 0x1000 ≤ o ∧ o < 0x2000

theorem window_write_busy {x : Window} {o : Nat} (h : x.busy = true) (ho : windowWritten o) (w : Nat) :
    x.write o w = { x with overrun := true } := by
  have hw : ¬ (0x0C ≤ o ∧ o < 0x1000) := by unfold windowWritten at ho; omega
  simp only [Window.write, if_neg hw, h, if_true]

/-- OVERRUN is set in the secure window, and in the non-secure one. -/
def State.secureOverrun (s : State) : State :=
  { s with dict := { s.dict with secure := { s.dict.secure with overrun := true } } }
def State.nonsecureOverrun (s : State) : State :=
  { s with dict := { s.dict with nonsecure := { s.dict.nonsecure with overrun := true } } }

theorem accept_secure_busy {s : State} (hh : s.hears .host = true) (hb : s.dict.secure.busy = true) (c : DictCommand) :
    s.accept .secure c = s.secureOverrun := by
  simp [State.accept, State.hearsSource, hh, hb, State.secureOverrun]

theorem accept_nonsecure_busy {s : State} (hh : s.hears .host = true) (hb : s.dict.nonsecure.busy = true)
    (c : DictCommand) : s.accept .nonsecure c = s.nonsecureOverrun := by
  simp [State.accept, State.hearsSource, hh, hb, State.nonsecureOverrun]

/-- A word of BAR2 that is assigned is written in a device that is not DORMANT. -/
theorem barWord_awake {s : State} {o : Nat} (hd : s.dormant = false) (ho : barAssigned .bar2 o = true) (w : Nat) :
    s.barWord .host .bar2 o w = s.writeBar2 o w := by
  simp [State.barWord, State.dark, State.writeWord, hd, ho]

theorem barAssigned_secure {o : Nat} (h : windowWritten o) : barAssigned .bar2 o = true := by
  simp only [windowWritten] at h
  simp only [barAssigned, Bool.or_eq_true, Bool.and_eq_true, decide_eq_true_eq]
  omega

theorem barAssigned_nonsecure {o : Nat} (h : windowWritten o) : barAssigned .bar2 (0x10000 + o) = true := by
  simp only [windowWritten] at h
  simp only [barAssigned, Bool.or_eq_true, Bool.and_eq_true, decide_eq_true_eq]
  omega

/-- A write to a busy secure window is dropped and sets OVERRUN: DW_CMD by the path's refusal, the others by the window's. -/
theorem barWord_secure_busy {s : State} {o : Nat} (hd : s.dormant = false) (hh : s.hears .host = true)
    (hb : s.dict.secure.busy = true) (ho : windowWritten o) (w : Nat) :
    s.barWord .host .bar2 o w = s.secureOverrun := by
  rw [barWord_awake hd (barAssigned_secure ho), State.writeBar2]
  by_cases hcmd : o = 0
  · rw [if_pos hcmd, accept_secure_busy hh hb]
  · have hlow : o < 0x10000 := by unfold windowWritten at ho; omega
    rw [if_neg hcmd, if_neg (Nat.ne_of_lt hlow), if_pos hlow, window_write_busy hb ho]
    rfl

theorem barWord_nonsecure_busy {s : State} {o : Nat} (hd : s.dormant = false) (hh : s.hears .host = true)
    (hb : s.dict.nonsecure.busy = true) (ho : windowWritten o) (w : Nat) :
    s.barWord .host .bar2 (0x10000 + o) w = s.nonsecureOverrun := by
  rw [barWord_awake hd (barAssigned_nonsecure ho), State.writeBar2, if_neg (by omega)]
  by_cases hcmd : o = 0
  · rw [if_pos (by omega), accept_nonsecure_busy hh hb]
  · have hhigh : 0x10000 + o < 0x20000 := by unfold windowWritten at ho; omega
    rw [if_neg (by omega), if_neg (by omega), if_pos hhigh, Nat.add_sub_cancel_left, window_write_busy hb ho]
    rfl

/-- Settles O35: each word of the write sets OVERRUN in its window and does nothing else, in the state it finds and after the
words before it. -/
theorem busyWindowsDropWrites : Obligations.BusyWindowsDropWrites := by
  unfold Obligations.BusyWindowsDropWrites
  intro s e t off data hacts he hproto hfull hoffs
  have hd : e.dormant = false := by rw [he, enter_dormant]; exact hacts.1
  have hh : e.hears .host = true := by simp [State.hears, hproto]
  obtain ⟨hnow, hpending, hnv, hao⟩ : Held s t e := he ▸ held_enter s t
  refine ⟨fun hb hsize => ?_, fun hb hsize => ?_⟩
  · refine does_registerWrite_absorbed (x := e.secureOverrun) hacts he ?_ ⟨hnow, hpending, hnv, hao⟩
    refine barWrite_absorbed (by decide) hh hfull hsize fun i hi w => ?_
    exact ⟨barWord_secure_busy hd hh hb (hoffs i hi) w,
      barWord_secure_busy (s := e.secureOverrun) hd hh hb (hoffs i hi) w⟩
  · refine does_registerWrite_absorbed (x := e.nonsecureOverrun) hacts he ?_ ⟨hnow, hpending, hnv, hao⟩
    refine barWrite_absorbed (by decide) hh hfull hsize fun i hi w => ?_
    rw [Nat.add_assoc]
    exact ⟨barWord_nonsecure_busy hd hh hb (hoffs i hi) w,
      barWord_nonsecure_busy (s := e.nonsecureOverrun) hd hh hb (hoffs i hi) w⟩

end Sys2Proof.Machine
end
